-- ==== Sys2Proof/Word.lean ====
section
/-! DEFINITION. The words of the panel-buffer encoder core: register and pixel words, output bytes,
the indices of the two memories, and a quantised level. -/

namespace Sys2Proof

/-- A register (10_state.md R10) or a pixel word (20_memory.md R32): 32 bits. -/
abbrev Word := BitVec 32

/-- An output byte, a channel value or a threshold (00_scope.md R6, 10_state.md R16): 8 bits. -/
abbrev Byte := BitVec 8

/-- A SRC word address, `0 .. 2^20 - 1` (20_memory.md R30). -/
abbrev SrcIndex := BitVec 20

/-- An OUT byte address, `0 .. 2^18 - 1` (20_memory.md R30). -/
abbrev OutIndex := BitVec 18

/-- A quantised level (30_encoding.md R56): 0 is white, `2^bpp - 1` black. -/
abbrev Level := BitVec 2

/-- The number of words of SRC (00_scope.md R8). -/
abbrev srcSize : Nat := 1048576

/-- The number of bytes of OUT (00_scope.md R8). -/
abbrev outSize : Nat := 262144

end Sys2Proof
end

