-- ==== Sys2Proof/Config.lean ====
section
/-! DEFINITION. What an instance of the hardware fixes and what the spec leaves open. Nothing here has
a body, so no proof can rest on a value: a statement about the machine holds for every instance. -/

namespace Sys2Proof

/-- ROT_LAST_X, the lowest column the rotated scan visits: 0 or 1 (00_scope.md R7, 92_eei_decisions.md
D11). Left open by the spec; log entry 1. Safe. -/
opaque Config.rotLastX : Fin 2

/-- GEOM_CHECK, whether ENCODE refuses an unsupported geometry (00_scope.md R7, 92_eei_decisions.md
D12). Left open by the spec; log entry 2. Safe. -/
opaque Config.geomCheck : Bool

/-- The free values a read of SRC draws where the spec says the word is unspecified: a word nothing
has written since reset (70_reset_and_hazards.md R113, R116), and a host read while BUSY
(20_memory.md R45). The argument is the number of draws made before. Log entries 3 and 4. Safe. -/
opaque Config.freeWord : Nat → Word

/-- The free values a host read of OUT draws in the same two cases (70_reset_and_hazards.md R113,
20_memory.md R45). Log entries 3 and 4. Safe. -/
opaque Config.freeByte : Nat → Byte

end Sys2Proof
end

