-- ==== Sys2Proof/Syntax.lean ====
section
/-! DEFINITION. The operations of the block, one constructor per row of spec/opcode_table.json, the
control word that selects them, and the host's operations. -/

namespace Sys2Proof

/-- The rows of the opcode map (30_encoding.md R51). ENCODE carries the qualifiers of the word that
issues it, as stored in CTRL; the slot operations take their operands from the latched configuration
and have none of their own. -/
inductive Instr where
  | encode (rot : BitVec 1) (bord bpp : BitVec 2)
  | qnt1
  | qnt2
  | mapn
  | mapr
  | pckm
  | pckl
  | rsvBpp0
  | rsvBpp3
  | rsvBord2
  | rsvBord3
  deriving DecidableEq, Repr

/-- The part of the control word that selects a row (30_encoding.md R48, R51). -/
inductive Slot where
  | command
  | quantiser
  | mapper
  | packer
  deriving DecidableEq, Repr

/-- The slot of each row (30_encoding.md R51, second column of its table). -/
def Instr.slot : Instr → Slot
  | .encode _ _ _ => .command
  | .qnt1 => .quantiser
  | .qnt2 => .quantiser
  | .mapn => .mapper
  | .mapr => .mapper
  | .pckm => .packer
  | .pckl => .packer
  | .rsvBpp0 => .quantiser
  | .rsvBpp3 => .quantiser
  | .rsvBord2 => .packer
  | .rsvBord3 => .packer

/-- The mask of each row (30_encoding.md R51): the bits of the control word that select it. -/
def Instr.mask : Instr → Word
  | .encode _ _ _ => 0x00000001
  | .qnt1 => 0x00000030
  | .qnt2 => 0x00000030
  | .mapn => 0x00000002
  | .mapr => 0x00000002
  | .pckm => 0x0000000C
  | .pckl => 0x0000000C
  | .rsvBpp0 => 0x00000030
  | .rsvBpp3 => 0x00000030
  | .rsvBord2 => 0x0000000C
  | .rsvBord3 => 0x0000000C

/-- The match of each row (30_encoding.md R51): the value of the masked bits that selects it. -/
def Instr.pattern : Instr → Word
  | .encode _ _ _ => 0x00000001
  | .qnt1 => 0x00000010
  | .qnt2 => 0x00000020
  | .mapn => 0x00000000
  | .mapr => 0x00000002
  | .pckm => 0x00000000
  | .pckl => 0x00000004
  | .rsvBpp0 => 0x00000000
  | .rsvBpp3 => 0x00000030
  | .rsvBord2 => 0x00000008
  | .rsvBord3 => 0x0000000C

/-- A decoded control word (30_encoding.md R50): whether it issues the command, and the operation each
slot selects. -/
structure ControlWord where
  start     : Bool
  quantiser : Instr
  mapper    : Instr
  packer    : Instr
  deriving DecidableEq, Repr

/-- The host's operations (30_encoding.md R58, 43_control.md R93 to R95), each one atomic transaction.
`sb` is a host write to OUT, which 10_state.md R21 says is ignored (log entry 13); `reset` is the
platform's reset input (70_reset_and_hazards.md R112). -/
inductive HostOp where
  | rd (reg : Nat)
  | wr (reg : Nat) (value : Word)
  | sw (addr : SrcIndex) (value : Word)
  | lw (addr : SrcIndex)
  | lb (addr : OutIndex)
  | sb (addr : OutIndex) (value : Byte)
  | poll
  | reset
  deriving DecidableEq, Repr

/-- A host operation still to come, with the number of block steps that pass before it lands. The
number plays no part while the block is not BUSY (log entry 7). -/
structure HostEvent where
  wait : Nat
  op   : HostOp
  deriving DecidableEq, Repr

end Sys2Proof
end

