-- ==== Sys2Proof/WellFormed.lean ====
section
/-! DEFINITION. When a decoded control word is well formed: each slot holds a row of its own slot
(30_encoding.md R51). Every term of `Instr` and of `HostOp` is well formed, since their fields have
the widths the spec gives them (43_control.md R95: an address outside its space cannot be expressed). -/

namespace Sys2Proof

/-- Each slot of the control word holds one of that slot's rows. -/
def ControlWord.wf (c : ControlWord) : Bool :=
  decide (c.quantiser.slot = .quantiser) && decide (c.mapper.slot = .mapper)
    && decide (c.packer.slot = .packer)

end Sys2Proof
end

