-- ==== Sys2Proof/Decode.lean ====
section
/-! DEFINITION. Decoding a control word (30_encoding.md R48, R50 to R55), total on all 2^32 words, and
the encoder. Nothing is rejected: every value of the low six bits has a reading (R54) and the rest is
ignored. -/

namespace Sys2Proof

/-- START, bit 0 (30_encoding.md R48). -/
def cwStart (cw : Word) : Bool := cw.getLsbD 0

/-- ROT, bit 1 (30_encoding.md R48). -/
def cwRot (cw : Word) : BitVec 1 := cw.extractLsb' 1 1

/-- BORD, bits 3:2 (30_encoding.md R48). -/
def cwBord (cw : Word) : BitVec 2 := cw.extractLsb' 2 2

/-- BPP, bits 5:4 (30_encoding.md R48). -/
def cwBpp (cw : Word) : BitVec 2 := cw.extractLsb' 4 2

/-- The quantiser operation a BPP value selects (30_encoding.md R51, R52). -/
def quantiserRow (bpp : BitVec 2) : Instr :=
  if bpp = 1 then .qnt1 else if bpp = 2 then .qnt2 else if bpp = 0 then .rsvBpp0 else .rsvBpp3

/-- The mapper operation a ROT value selects (30_encoding.md R51). -/
def mapperRow (rot : BitVec 1) : Instr :=
  if rot = 0 then .mapn else .mapr

/-- The packer operation a BORD value selects (30_encoding.md R51, R53). -/
def packerRow (bord : BitVec 2) : Instr :=
  if bord = 0 then .pckm else if bord = 1 then .pckl else if bord = 2 then .rsvBord2 else .rsvBord3

/-- The row that the fields of a control word name in one slot; for the command slot, ENCODE with the
word's qualifiers (30_encoding.md R50, R51). -/
def rowOf (sl : Slot) (cw : Word) : Instr :=
  match sl with
  | .command => .encode (cwRot cw) (cwBord cw) (cwBpp cw)
  | .quantiser => quantiserRow (cwBpp cw)
  | .mapper => mapperRow (cwRot cw)
  | .packer => packerRow (cwBord cw)

/-- The command a control word issues: ENCODE with the word's qualifiers when START is 1, none when it
is 0 (30_encoding.md R50, R55). -/
def commandOf (cw : Word) : Option Instr :=
  if cwStart cw then some (rowOf .command cw) else none

/-- The four fields read independently (30_encoding.md R50). -/
def decodeControl (cw : Word) : ControlWord where
  start := cwStart cw
  quantiser := quantiserRow (cwBpp cw)
  mapper := mapperRow (cwRot cw)
  packer := packerRow (cwBord cw)

/-- The row a control word selects in one slot (30_encoding.md R50, R51); the command slot may select
none. -/
def decodeSlot (sl : Slot) (cw : Word) : Option Instr :=
  match sl with
  | .command => commandOf cw
  | sl => some (rowOf sl cw)

/-- The control word of one row: its match, with ENCODE's qualifiers in their fields
(30_encoding.md R48, R51). -/
def encodeRow : Instr → Word
  | .encode rot bord bpp =>
    0x00000001 ||| (rot.setWidth 32 <<< 1) ||| (bord.setWidth 32 <<< 2) ||| (bpp.setWidth 32 <<< 4)
  | .qnt1 => 0x00000010
  | .qnt2 => 0x00000020
  | .mapn => 0x00000000
  | .mapr => 0x00000002
  | .pckm => 0x00000000
  | .pckl => 0x00000004
  | .rsvBpp0 => 0x00000000
  | .rsvBpp3 => 0x00000030
  | .rsvBord2 => 0x00000008
  | .rsvBord3 => 0x0000000C

/-- The control word that selects the given rows, reserved bits 0 (30_encoding.md R51). -/
def encodeControl (c : ControlWord) : Word :=
  (BitVec.ofBool c.start).setWidth 32 ||| encodeRow c.quantiser ||| encodeRow c.mapper ||| encodeRow c.packer

/-- The control word of an opcode-table row's bits: the given bits, every other bit 0. -/
def tableWord (nbits w : Nat) : Word := BitVec.ofNat 32 (w % 2 ^ nbits)

/-- The slot whose row stands for a control word where one row must be named: the command when START is
1, else the slot that the word sets away from code 0, the quantiser before the packer before the
mapper (DESIGN CHOICE, log entry 9: the rows of different slots share words). -/
def tableSlot (cw : Word) : Slot :=
  if cwStart cw then .command
  else if cwBpp cw ≠ 0 then .quantiser
  else if cwBord cw ≠ 0 then .packer
  else .mapper

/-- The instruction the decoder reads from the bits of one opcode-table row; a row is at most one
32-bit control word long (30_encoding.md R48). -/
def decodeTableWord (nbits w : Nat) : Option Instr :=
  if nbits ≤ 32 then some (rowOf (tableSlot (tableWord nbits w)) (tableWord nbits w)) else none

end Sys2Proof
end

