-- ==== Sys2Proof/Machine/State.lean ====
section
/-! DEFINITION. The state of one instance of the block (10_state.md), the host port the model adds to
it, and the state after reset. -/

namespace Sys2Proof.Machine

/-- The stored fields of CTRL, register 0 (10_state.md R11). START is not stored. -/
structure Ctrl where
  rot  : BitVec 1
  bord : BitVec 2
  bpp  : BitVec 2
  deriving DecidableEq, Repr

/-- STATUS.STATE, register 1 (10_state.md R12). -/
inductive RunState where
  | idle
  | busy
  | done
  | error
  deriving DecidableEq, Repr

/-- The three fields of THR2, register 6 (10_state.md R17), numbered in the order of evaluation. -/
structure Thr2 where
  t0 : Byte
  t1 : Byte
  t2 : Byte
  deriving DecidableEq, Repr

/-- The configuration latch of a run (10_state.md R22): `L.BPP`, `L.BORD`, `L.ROT`, `L.W`, `L.H`, `L.T`
and `L.T0`, `L.T1`, `L.T2`. -/
structure Latch where
  bpp  : BitVec 2
  bord : BitVec 2
  rot  : BitVec 1
  w    : BitVec 10
  h    : BitVec 10
  t    : Byte
  thr2 : Thr2
  deriving DecidableEq, Repr

/-- Which part of the reference sequencer's step comes next (43_control.md R90): the fetch, the
quantiser, the packer, or the flush and completion. The model's own (log entry 6). -/
inductive Phase where
  | map
  | quantise
  | pack
  | finish
  deriving DecidableEq, Repr

/-- What a host read returned: of a register, of a SRC word, of an OUT byte (43_control.md R93, R95).
The model's own (log entry 7). -/
inductive Reply where
  | reg (n : Nat) (v : Word)
  | src (a : SrcIndex) (v : Word)
  | out (k : OutIndex) (v : Byte)
  deriving DecidableEq, Repr

/-- A memory as the list of the cells written since reset, addresses strictly rising. SRC has words for
cells and OUT bytes (20_memory.md R34; log entry 3 for the cells that are not listed). -/
abbrev Memory (n : Nat) := List (Nat × BitVec n)

/-- The canonical form of a memory of `size` cells: addresses strictly rising and below `size`. A cell
not listed has no value of its own, so no listed cell is removable. -/
abbrev Memory.wf {n : Nat} (size : Nat) (m : Memory n) : Prop :=
  m.Pairwise (fun c d => c.1 < d.1) ∧ ∀ c ∈ m, c.1 < size

/-- The state of one instance. The last six fields are the model's own (log entries 3, 6 and 7). -/
structure State where
  ctrl    : Ctrl
  status  : RunState
  err     : BitVec 3
  width   : BitVec 10
  height  : BitVec 10
  thr1    : Byte
  thr2    : Thr2
  outlen  : BitVec 18
  src     : Memory 32
  out     : List Host.Cell
  latch   : Latch
  seq     : BitVec 20
  chi     : BitVec 3
  acc     : Byte
  optr    : OutIndex
  phase   : Phase
  pixel   : Word
  level   : Level
  draws   : Nat
  pending : List HostEvent
  replies : List Reply
  deriving DecidableEq, Repr

/-- Reasons to stop with a fault. There is none: the block's one exception is the error entry of
60_exceptions.md R103, which is a next state, and no other operation and no step of a run raises
anything (R98). Nobody raises one. -/
inductive Fault where
  deriving DecidableEq, Repr

/-- Reasons to refuse. -/
inductive Refusal where
  /-- Raised by `exec`'s arm of an instruction the model gives no meaning; there is no such arm. Safe. -/
  | notModelled (mnemonic : String)
  deriving DecidableEq, Repr

/-- The latch of a machine that has not started a run: unspecified and unobservable (10_state.md
section 8), zero here (DESIGN CHOICE, log entry 5). -/
def Latch.atReset : Latch where
  bpp := 0
  bord := 0
  rot := 0
  w := 0
  h := 0
  t := 0
  thr2 := ⟨0, 0, 0⟩

/-- The machine right after reset (70_reset_and_hazards.md R112, 10_state.md section 8). The memories
are unspecified (R113): nothing is listed. The latch, the counters and the model's own fields have
values the log names (log entries 5 and 8). -/
def State.reset : State where
  ctrl := ⟨0, 0, 0⟩
  status := .idle
  err := 0
  width := 0
  height := 0
  thr1 := 128
  thr2 := ⟨192, 128, 64⟩
  outlen := 0
  src := []
  out := []
  latch := Latch.atReset
  seq := 0
  chi := 0
  acc := 0
  optr := 0
  phase := .map
  pixel := 0
  level := 0
  draws := 0
  pending := []
  replies := []

end Sys2Proof.Machine
end

