-- ==== Sys2Proof/Machine/Operands.lean ====
section
/-! DEFINITION. The operands of a run (30_encoding.md R49): the channels of a pixel word, the counts
that follow from the latched configuration, the one addressing mode of the load (41_mapper.md R70 to
R73) and the slot of a pixel in its output byte (42_packer.md R79). All arithmetic is on naturals. -/

namespace Sys2Proof.Machine

/-- The first colour channel of a pixel word (20_memory.md R32). -/
def chan0 (p : Word) : Byte := p.extractLsb' 0 8

/-- The second colour channel of a pixel word (20_memory.md R32). -/
def chan1 (p : Word) : Byte := p.extractLsb' 8 8

/-- The third colour channel of a pixel word (20_memory.md R32). -/
def chan2 (p : Word) : Byte := p.extractLsb' 16 8

/-- `PIX r, g, b, a` (30_encoding.md R58): the pixel word of four channel values. -/
def pix (r g b a : Byte) : Word :=
  r.setWidth 32 ||| (g.setWidth 32 <<< 8) ||| (b.setWidth 32 <<< 16) ||| (a.setWidth 32 <<< 24)

/-- Pixels per byte, `8 div bpp` (00_scope.md R6). -/
def ppb (bpp : Nat) : Nat := 8 / bpp

/-- `SeqLen` (41_mapper.md R70), the number of elements of the scan sequence, for ROT_LAST_X = `last`. -/
def seqLen (last w h : Nat) (rot : Bool) : Nat :=
  if rot then (w - last) * h else w * h

/-- `OutLen` (42_packer.md R80), the number of bytes that `n` scan elements make. -/
def outLen (n bpp : Nat) : Nat := (n + ppb bpp - 1) / ppb bpp

/-- `CoordN` (41_mapper.md R71): the coordinate `(x, y)` of scan element `n`, row by row. -/
def coordN (n w : Nat) : Nat × Nat := (n % w, n / w)

/-- `CoordR` (41_mapper.md R72): the coordinate `(x, y)` of scan element `n`, column by column from the
last. -/
def coordR (n w h : Nat) : Nat × Nat := (w - 1 - n / h, n % h)

/-- `SrcAddr` of a coordinate (41_mapper.md R73, 20_memory.md R31). -/
def srcAddr (w : Nat) (xy : Nat × Nat) : Nat := xy.2 * w + xy.1

/-- `Slot(i, bpp, MSB)` (42_packer.md R79). -/
def slotM (bpp i : Nat) : Nat := (ppb bpp - 1 - i) * bpp

/-- `Slot(i, bpp, LSB)` (42_packer.md R79). -/
def slotL (bpp i : Nat) : Nat := i * bpp

/-- The number of scan elements of the latched configuration, on an instance with ROT_LAST_X = `last`
(41_mapper.md R70). -/
def Latch.seqLen (last : Nat) (l : Latch) : Nat :=
  Sys2Proof.Machine.seqLen last l.w.toNat l.h.toNat (decide (l.rot = 1))

/-- The number of scan elements of the run in progress (41_mapper.md R70). -/
def Latch.runLen (l : Latch) : Nat := l.seqLen Config.rotLastX.val

/-- The number of bytes of the run in progress (42_packer.md R80). -/
def Latch.runBytes (l : Latch) : Nat := outLen l.runLen l.bpp.toNat

/-- The stage that comes first for scan element `n`: the fetch while elements are left, the flush and
completion when `n` is the length of the sequence (43_control.md R90). -/
def Latch.phaseAt (l : Latch) (n : Nat) : Phase :=
  if n < l.runLen then .map else .finish

end Sys2Proof.Machine
end

