-- ==== Sys2Proof/Machine/Flags.lean ====
section
/-! DEFINITION. The block's only flags (10_state.md R26): the state field of STATUS and the cause bits
of ERR (60_exceptions.md R98 to R102). -/

namespace Sys2Proof.Machine

/-- The code of STATUS.STATE (10_state.md R12). -/
def RunState.code : RunState → BitVec 2
  | .idle => 0
  | .busy => 1
  | .done => 2
  | .error => 3

/-- E_BPP, bit 0 of ERR (10_state.md R13). -/
def eBpp : BitVec 3 := 0b001

/-- E_BORD, bit 1 of ERR (10_state.md R13). -/
def eBord : BitVec 3 := 0b010

/-- E_GEOM, bit 2 of ERR (10_state.md R13). -/
def eGeom : BitVec 3 := 0b100

/-- Whether `(w, h)` is one of the two supported geometries (00_scope.md R6, 60_exceptions.md R101). -/
def supportedGeometry (w h : BitVec 10) : Bool :=
  (w == 800 && h == 480) || (w == 480 && h == 800)

/-- The causes for which a START with a latched configuration is refused, on an instance with
GEOM_CHECK = `check` (43_control.md R88), all together (60_exceptions.md R102). -/
def Latch.causes (check : Bool) (l : Latch) : BitVec 3 :=
  (if l.bpp = 0 ∨ l.bpp = 3 then eBpp else 0) |||
  (if l.bord = 2 ∨ l.bord = 3 then eBord else 0) |||
  (if !supportedGeometry l.w l.h && check then eGeom else 0)

/-- The causes that apply on this instance (43_control.md R88). -/
def Latch.refusal (l : Latch) : BitVec 3 := l.causes Config.geomCheck

end Sys2Proof.Machine
end

