-- ==== Sys2Proof/Machine/Ops.lean ====
section
/-! DEFINITION. The shared operations over memory and registers, and the one exception entry. There is
no return from an exception (60_exceptions.md R105): the next accepted START rewrites what the entry
wrote. -/

namespace Sys2Proof.Machine

/-- The value of a listed cell. -/
def memRead {n : Nat} (m : Memory n) (a : Nat) : Option (BitVec n) :=
  match m with
  | [] => none
  | (b, v) :: m => if b = a then some v else memRead m a

/-- The memory with the cell at `a` holding `v`, kept in rising order of addresses. -/
def memWrite {n : Nat} (m : Memory n) (a : Nat) (v : BitVec n) : Memory n :=
  match m with
  | [] => [(a, v)]
  | (b, u) :: m =>
    if a < b then (a, v) :: (b, u) :: m
    else if a = b then (a, v) :: m
    else (b, u) :: memWrite m a v

/-- A free pixel word, and the state that has drawn it (log entries 3 and 4). -/
def drawWord (s : State) : Word × State :=
  (Config.freeWord s.draws, { s with draws := s.draws + 1 })

/-- A free byte, and the state that has drawn it (log entries 3 and 4). -/
def drawByte (s : State) : Byte × State :=
  (Config.freeByte s.draws, { s with draws := s.draws + 1 })

/-- `MemRead(SRC, a, 4)`: the stored word, or a free one where nothing has been written since reset
(10_state.md R20, 70_reset_and_hazards.md R113, R116). -/
def readSrc (a : SrcIndex) (s : State) : Word × State :=
  match memRead s.src a.toNat with
  | some v => (v, s)
  | none => drawWord s

/-- `MemRead(OUT, k, 1)`: the stored byte, or a free one where nothing has been written since reset
(10_state.md R21, 70_reset_and_hazards.md R113). -/
def readOut (k : OutIndex) (s : State) : Byte × State :=
  match memRead s.out k.toNat with
  | some v => (v, s)
  | none => drawByte s

/-- `MemWrite(SRC, a, 4, v)` (20_memory.md R30: the host only). -/
def writeSrc (a : SrcIndex) (v : Word) (s : State) : State :=
  { s with src := memWrite s.src a.toNat v }

/-- Polarity inversion (42_packer.md R83). -/
def invert (raw : Byte) : Byte := raw ^^^ 0xFF

/-- `MemWrite(OUT, OPTR, 1, v); OPTR <- OPTR + 1` (43_control.md R90, 42_packer.md R87). -/
def storeByte (v : Byte) (s : State) : State :=
  { s with out := memWrite s.out s.optr.toNat v, optr := s.optr + 1 }

/-- The value of register number `n`, reserved bits and START as 0, an unmapped number as 0
(43_control.md R93, 10_state.md R10 to R19). -/
def readReg (s : State) (n : Nat) : Word :=
  match n with
  | 0 => (s.ctrl.rot.setWidth 32 <<< 1) ||| (s.ctrl.bord.setWidth 32 <<< 2)
          ||| (s.ctrl.bpp.setWidth 32 <<< 4)
  | 1 => s.status.code.setWidth 32
  | 2 => s.err.setWidth 32
  | 3 => s.width.setWidth 32
  | 4 => s.height.setWidth 32
  | 5 => s.thr1.setWidth 32
  | 6 => s.thr2.t0.setWidth 32 ||| (s.thr2.t1.setWidth 32 <<< 8)
          ||| (s.thr2.t2.setWidth 32 <<< 16)
  | 7 => s.outlen.setWidth 32
  | _ => 0

/-- The storing of ROT, BORD and BPP by a write of CTRL (43_control.md R88, R94). -/
def storeCtrl (rot : BitVec 1) (bord bpp : BitVec 2) (s : State) : State :=
  { s with ctrl := ⟨rot, bord, bpp⟩ }

/-- The storing part of a register write outside a run: each field keeps its own bits; read-only
registers and unmapped numbers ignore the write (43_control.md R94, 10_state.md R19). A write of CTRL
with START set is the ENCODE instruction, which `step` issues. -/
def writeReg (n : Nat) (v : Word) (s : State) : State :=
  match n with
  | 0 => storeCtrl (cwRot v) (cwBord v) (cwBpp v) s
  | 3 => { s with width := v.setWidth 10 }
  | 4 => { s with height := v.setWidth 10 }
  | 5 => { s with thr1 := v.setWidth 8 }
  | 6 => { s with thr2 := ⟨v.extractLsb' 0 8, v.extractLsb' 8 8, v.extractLsb' 16 8⟩ }
  | _ => s

/-- The configuration latch of an accepted START (10_state.md R22). -/
def latchConfig (s : State) : State :=
  { s with latch :=
      { bpp := s.ctrl.bpp, bord := s.ctrl.bord, rot := s.ctrl.rot, w := s.width, h := s.height,
        t := s.thr1, thr2 := s.thr2 } }

/-- TAKING THE EXCEPTION `ConfigError(e)`: the error entry of 60_exceptions.md R103. Nothing else
changes; there is no vector, no saved state and no mode (R103, R109, R110). -/
def raiseConfigError (e : BitVec 3) (s : State) : State :=
  { s with err := e, outlen := 0, status := .error }

/-- A stage operation of a run: it has its effect while the block is BUSY, and outside a run, where no
command is present, none (43_control.md R90, 30_encoding.md R50; log entry 10). -/
def whileBusy (f : State → State) (s : State) : Host.Outcome State Fault Refusal :=
  .next (if s.status = .busy then f s else s)

end Sys2Proof.Machine
end

