-- ==== Sys2Proof/Machine/Control.lean ====
section
/-! DEFINITION. ENCODE, the one command (43_control.md R88), the reserved slot selections
(60_exceptions.md R99, R100), and the end of a run (43_control.md R90, R91). -/

namespace Sys2Proof.Machine

/-- The rest of an accepted START once the configuration is latched: refuse it with every cause that
applies, or start the run (43_control.md R88). -/
def startRun (s : State) : State :=
  if s.latch.refusal ≠ 0 then raiseConfigError s.latch.refusal s
  else
    { s with
      outlen := 0, err := 0, seq := 0, chi := 0, acc := 0, optr := 0, status := .busy,
      phase := s.latch.phaseAt 0 }

/-- ENCODE (43_control.md R88), one atomic action: ignored whole while BUSY, else store, latch, check,
and refuse or start. -/
def execEncode (rot : BitVec 1) (bord bpp : BitVec 2) (s : State) :
    Host.Outcome State Fault Refusal :=
  .next (if s.status = .busy then s else startRun (latchConfig (storeCtrl rot bord bpp s)))

/-- The error entry for a reserved selection: its own cause and every other cause of the latched
configuration (60_exceptions.md R102, R103; log entry 10). -/
def refuseSelection (cause : BitVec 3) (s : State) : Host.Outcome State Fault Refusal :=
  .next (raiseConfigError (cause ||| s.latch.refusal) s)

/-- RSV.BPP0: the unrecognised value 0 of BPP (60_exceptions.md R99, 30_encoding.md R52). -/
def execRsvBpp0 (s : State) : Host.Outcome State Fault Refusal :=
  refuseSelection eBpp s

/-- RSV.BPP3: the unrecognised value 3 of BPP (60_exceptions.md R99, 30_encoding.md R52). -/
def execRsvBpp3 (s : State) : Host.Outcome State Fault Refusal :=
  refuseSelection eBpp s

/-- RSV.BORD2: the unrecognised token 2 of BORD (60_exceptions.md R100, 30_encoding.md R53). -/
def execRsvBord2 (s : State) : Host.Outcome State Fault Refusal :=
  refuseSelection eBord s

/-- RSV.BORD3: the unrecognised token 3 of BORD (60_exceptions.md R100, 30_encoding.md R53). -/
def execRsvBord3 (s : State) : Host.Outcome State Fault Refusal :=
  refuseSelection eBord s

/-- The flush of a short last chunk (43_control.md R90, 42_packer.md R84): the fields never filled are
still 0 in ACC. -/
def flushByte (s : State) : State :=
  if s.chi ≠ 0 then storeByte (invert s.acc) s else s

/-- The flush and the completion of a run (43_control.md R90, R91). -/
def finishRun (s : State) : State :=
  { flushByte s with outlen := BitVec.ofNat 18 s.latch.runBytes, status := .done }

end Sys2Proof.Machine
end

