-- ==== Sys2Proof/Machine/Mapper.lean ====
section
/-! DEFINITION. The mapper operations (41_mapper.md): the address of the scan element SEQ and the load
of its pixel word. -/

namespace Sys2Proof.Machine

/-- The load of the pixel at a coordinate (41_mapper.md R73). The word goes to the quantiser. -/
def fetchPixel (xy : Nat × Nat) (s : State) : State :=
  let r := readSrc (BitVec.ofNat 20 (srcAddr s.latch.w.toNat xy)) s
  { r.2 with pixel := r.1, phase := .quantise }

/-- MAPN (41_mapper.md R71, R73). -/
def execMapn (s : State) : Host.Outcome State Fault Refusal :=
  whileBusy (fun s => fetchPixel (coordN s.seq.toNat s.latch.w.toNat) s) s

/-- MAPR (41_mapper.md R72, R73). -/
def execMapr (s : State) : Host.Outcome State Fault Refusal :=
  whileBusy (fun s => fetchPixel (coordR s.seq.toNat s.latch.w.toNat s.latch.h.toNat) s) s

end Sys2Proof.Machine
end

