-- ==== Sys2Proof/Machine/Packer.lean ====
section
/-! DEFINITION. The packer operations (42_packer.md R78 to R87, 43_control.md R90): a level is placed
in its slot of the byte under construction, and a full byte is inverted and stored. -/

namespace Sys2Proof.Machine

/-- A level shifted to its slot of the raw composed byte (42_packer.md R81, R82, R85). -/
def placed (v : Level) (slot : Nat) : Byte := v.setWidth 8 <<< slot

/-- `ACC <- ACC | (v << slot); SEQ <- SEQ + 1` (43_control.md R90). -/
def addLevel (slot : Nat) (s : State) : State :=
  { s with
    acc := s.acc ||| placed s.level slot, seq := s.seq + 1,
    phase := s.latch.phaseAt (s.seq + 1).toNat }

/-- The end of the reference step (43_control.md R90): a full chunk is inverted and stored, and the next
one starts empty. -/
def closeChunk (s : State) : State :=
  if s.chi.toNat = ppb s.latch.bpp.toNat - 1 then
    { storeByte (invert s.acc) s with acc := 0, chi := 0 }
  else { s with chi := s.chi + 1 }

/-- One scan element packed at `slot`: the part of the reference step after the quantiser
(43_control.md R90). -/
def packAt (slot : Nat) (s : State) : State := closeChunk (addLevel slot s)

/-- PCKM (42_packer.md R81, R83): the first pixel of a chunk in the most significant field. -/
def execPckm (s : State) : Host.Outcome State Fault Refusal :=
  whileBusy (fun s => packAt (slotM s.latch.bpp.toNat s.chi.toNat) s) s

/-- PCKL (42_packer.md R82, R83): the first pixel of a chunk in the least significant field. -/
def execPckl (s : State) : Host.Outcome State Fault Refusal :=
  whileBusy (fun s => packAt (slotL s.latch.bpp.toNat s.chi.toNat) s) s

end Sys2Proof.Machine
end

