-- ==== Sys2Proof/Machine/Quantizer.lean ====
section
/-! DEFINITION. The quantiser operations (40_quantizer.md). -/

namespace Sys2Proof.Machine

/-- `Qnt1` (40_quantizer.md R65). -/
def qnt1 (c0 c1 c2 t : Byte) : Level :=
  if c0 ≤ t ∧ c1 ≤ t ∧ c2 ≤ t then 1 else 0

/-- `any_gt` (40_quantizer.md R66): some channel exceeds the cut point. -/
def anyGt (c0 c1 c2 t : Byte) : Bool :=
  decide (t < c0) || decide (t < c1) || decide (t < c2)

/-- `Qnt2` (40_quantizer.md R66), for thresholds in any order (R67). -/
def qnt2 (c0 c1 c2 t0 t1 t2 : Byte) : Level :=
  if anyGt c0 c1 c2 t0 then 0
  else if anyGt c0 c1 c2 t1 then 1
  else if anyGt c0 c1 c2 t2 then 2
  else 3

/-- The level goes to the packer (43_control.md R90). -/
def setLevel (v : Level) (s : State) : State :=
  { s with level := v, phase := .pack }

/-- QNT1 (40_quantizer.md R64, R65) on the pixel word the mapper has fetched. -/
def execQnt1 (s : State) : Host.Outcome State Fault Refusal :=
  whileBusy (fun s => setLevel (qnt1 (chan0 s.pixel) (chan1 s.pixel) (chan2 s.pixel) s.latch.t) s) s

/-- QNT2 (40_quantizer.md R64, R66, R67) on the pixel word the mapper has fetched. -/
def execQnt2 (s : State) : Host.Outcome State Fault Refusal :=
  whileBusy (fun s =>
    setLevel (qnt2 (chan0 s.pixel) (chan1 s.pixel) (chan2 s.pixel)
      s.latch.thr2.t0 s.latch.thr2.t1 s.latch.thr2.t2) s) s

end Sys2Proof.Machine
end

