-- ==== Sys2Proof/Machine/Dispatch.lean ====
section
/-! DEFINITION. One arm per row of the opcode map (30_encoding.md R51). -/

namespace Sys2Proof.Machine

def exec (i : Instr) (s : State) : Host.Outcome State Fault Refusal :=
  match i with
  | .encode rot bord bpp => Sys2Proof.Machine.execEncode rot bord bpp s
  | .qnt1 => Sys2Proof.Machine.execQnt1 s
  | .qnt2 => Sys2Proof.Machine.execQnt2 s
  | .mapn => Sys2Proof.Machine.execMapn s
  | .mapr => Sys2Proof.Machine.execMapr s
  | .pckm => Sys2Proof.Machine.execPckm s
  | .pckl => Sys2Proof.Machine.execPckl s
  | .rsvBpp0 => Sys2Proof.Machine.execRsvBpp0 s
  | .rsvBpp3 => Sys2Proof.Machine.execRsvBpp3 s
  | .rsvBord2 => Sys2Proof.Machine.execRsvBord2 s
  | .rsvBord3 => Sys2Proof.Machine.execRsvBord3 s

end Sys2Proof.Machine
end

