-- ==== Sys2Proof/Machine/HostPort.lean ====
section
/-! DEFINITION. The host's operations (43_control.md R93 to R95, 20_memory.md R45) and the platform's
reset (70_reset_and_hazards.md R112). No one of them stops the machine. -/

namespace Sys2Proof.Machine

/-- A value returned to the host (log entry 7). -/
def reply (r : Reply) (s : State) : State :=
  { s with replies := r :: s.replies }

/-- `RD n` (43_control.md R93). -/
def hostReadReg (n : Nat) (s : State) : State :=
  reply (.reg n (readReg s n)) s

/-- `WR n, v` (43_control.md R94): ignored while BUSY (20_memory.md R45). A write of CTRL with START
set is the ENCODE instruction, which `step` issues in its place. -/
def hostWriteReg (n : Nat) (v : Word) (s : State) : State :=
  if s.status = .busy then s else writeReg n v s

/-- `SW a, v` (43_control.md R95): ignored while BUSY. -/
def hostWriteSrc (a : SrcIndex) (v : Word) (s : State) : State :=
  if s.status = .busy then s else writeSrc a v s

/-- `LW a` (43_control.md R95): an unspecified value while BUSY (log entry 4). -/
def hostReadSrc (a : SrcIndex) (s : State) : State :=
  let r := if s.status = .busy then drawWord s else readSrc a s
  reply (.src a r.1) r.2

/-- `LB k` (43_control.md R95): an unspecified value while BUSY (log entry 4). -/
def hostReadOut (k : OutIndex) (s : State) : State :=
  let r := if s.status = .busy then drawByte s else readOut k s
  reply (.out k r.1) r.2

/-- `POLL` (30_encoding.md R58): read STATUS again, after at least one block step, until the value is
not BUSY (log entry 7). -/
def hostPoll (s : State) : State :=
  let s := hostReadReg 1 s
  if s.status = .busy then { s with pending := ⟨1, .poll⟩ :: s.pending } else s

/-- Reset (70_reset_and_hazards.md R112, R113): every register takes its reset value, a run in progress
is abandoned, the memories are unspecified. The host's side goes on (log entry 15). -/
def resetBlock (s : State) : State :=
  { State.reset with draws := s.draws, pending := s.pending, replies := s.replies }

/-- The effect of a host operation that issues no command. A host write to OUT is ignored (10_state.md
R21, 20_memory.md R37). -/
def landHostOp (op : HostOp) (s : State) : State :=
  match op with
  | .rd n => hostReadReg n s
  | .wr n v => hostWriteReg n v s
  | .sw a v => hostWriteSrc a v s
  | .lw a => hostReadSrc a s
  | .lb k => hostReadOut k s
  | .sb _ _ => s
  | .poll => hostPoll s
  | .reset => resetBlock s

/-- `ENCODE bpp, order, rot` of the host (30_encoding.md R58): the control word with START set, then
POLL. -/
def encodeProgram (rot : BitVec 1) (bord bpp : BitVec 2) : List HostEvent :=
  [⟨0, .wr 0 (encodeRow (.encode rot bord bpp))⟩, ⟨0, .poll⟩]

end Sys2Proof.Machine
end

