-- ==== Sys2Proof/Machine/Sequencer.lean ====
section
/-! DEFINITION. Who moves next and what is issued: a host operation when its moment has come, else the
stage of the run in progress (43_control.md R90, R92). -/

namespace Sys2Proof.Machine

/-- The host operation that lands now: the oldest pending one, at once outside a run, and during a run
when no block steps are left before it (20_memory.md R39, 10_state.md R27; log entry 7). -/
def nextHostOp (s : State) : Option HostOp :=
  match s.pending with
  | [] => none
  | e :: _ => if s.status = .busy ∧ e.wait ≠ 0 then none else some e.op

/-- The instruction a host operation issues: ENCODE, by a write of CTRL with START set
(43_control.md R88); any other operation issues none (30_encoding.md R55). -/
def issuedBy (op : HostOp) : Option Instr :=
  match op with
  | .wr 0 v => commandOf v
  | _ => none

/-- The operation the latched configuration selects for the stage that comes next (30_encoding.md R50,
43_control.md R90); none for the flush and completion. -/
def stageOp (s : State) : Option Instr :=
  match s.phase with
  | .map => some (mapperRow s.latch.rot)
  | .quantise => some (quantiserRow s.latch.bpp)
  | .pack => some (packerRow s.latch.bord)
  | .finish => none

/-- The state once the oldest host operation has been taken. -/
def takeHostOp (s : State) : State :=
  { s with pending := s.pending.tail }

/-- The pending operations with a block step less to wait for the oldest. -/
def waitLess (l : List HostEvent) : List HostEvent :=
  match l with
  | [] => []
  | e :: rest => ⟨e.wait - 1, e.op⟩ :: rest

/-- The pending operations with a block step more to wait for the oldest. -/
def waitMore (l : List HostEvent) : List HostEvent :=
  match l with
  | [] => []
  | e :: rest => ⟨e.wait + 1, e.op⟩ :: rest

/-- The state once a block step has passed for the oldest pending host operation. -/
def passBlockStep (s : State) : State :=
  { s with pending := waitLess s.pending }

/-- The state in which the oldest pending host operation is put off by one block step. -/
def postpone (s : State) : State :=
  { s with pending := waitMore s.pending }

/-- The state in which the row that a control word stands for (`tableSlot`) is issued next: for the
command, the host's write of the word to CTRL; for a slot row, a run in progress that has latched the
selection and has come to its stage (log entry 8). -/
def placeWord (cw : Word) (s : State) : State :=
  match tableSlot cw with
  | .command => { s with pending := ⟨0, .wr 0 cw⟩ :: s.pending }
  | .quantiser =>
    { postpone s with
      status := .busy, phase := .quantise, latch := { s.latch with bpp := cwBpp cw } }
  | .mapper =>
    { postpone s with
      status := .busy, phase := .map, latch := { s.latch with rot := cwRot cw } }
  | .packer =>
    { postpone s with
      status := .busy, phase := .pack, latch := { s.latch with bord := cwBord cw } }

end Sys2Proof.Machine
end

