-- ==== Sys2Proof/Machine/Step.lean ====
section
/-! DEFINITION. One step of the machine: one host operation, or one stage of the run in progress, or
nothing (an idle block waits, 60_exceptions.md R111). -/

namespace Sys2Proof.Machine

/-- One step (43_control.md R90, R92, R93 to R95). -/
def step (s : State) : Host.Outcome State Fault Refusal :=
  match nextHostOp s with
  | some op =>
    match issuedBy op with
    | some i => exec i (takeHostOp s)
    | none => .next (landHostOp op (takeHostOp s))
  | none =>
    if s.status = .busy then
      match stageOp s with
      | some i => exec i (passBlockStep s)
      | none => .next (finishRun (passBlockStep s))
    else .next s

/-- `s` with the row that the bits stand for as what `step` issues next (log entry 8). -/
def State.withFetchWord (s : State) (nbits w : Nat) : State :=
  placeWord (tableWord nbits w) s

end Sys2Proof.Machine
end

