-- ==== Sys2Proof/Machine/Reference.lean ====
section
/-! DEFINITION. What a run computes, as the spec's pure functions: `Quant`, `Coord`, `Pack` and
`EncodeCore` (40_quantizer.md R64, 41_mapper.md R73, 42_packer.md R81 to R84, 43_control.md R89). The
machine does not use them; statements compare the run with them. -/

namespace Sys2Proof.Machine

/-- `Quant(p)` for a latched configuration with BPP 1 or 2 (40_quantizer.md R64). -/
def quant (l : Latch) (p : Word) : Level :=
  if l.bpp = 1 then qnt1 (chan0 p) (chan1 p) (chan2 p) l.t
  else qnt2 (chan0 p) (chan1 p) (chan2 p) l.thr2.t0 l.thr2.t1 l.thr2.t2

/-- `SrcAddr(n)` (41_mapper.md R73). -/
def scanAddr (l : Latch) (n : Nat) : Nat :=
  srcAddr l.w.toNat
    (if l.rot = 0 then coordN n l.w.toNat else coordR n l.w.toNat l.h.toNat)

/-- `lev(n)`: the level of scan element `n`, and 0 past the end (43_control.md R89). -/
def lev (last : Nat) (l : Latch) (src : Nat → Word) (n : Nat) : Level :=
  if n < l.seqLen last then quant l (src (scanAddr l n)) else 0

/-- The OR of the levels `v 0 .. v (n-1)`, each in its slot. -/
def composed (slot : Nat → Nat) (v : Nat → Level) (n : Nat) : Byte :=
  match n with
  | 0 => 0
  | n + 1 => composed slot v n ||| placed (v n) (slot n)

/-- `RawM` (42_packer.md R81). -/
def rawM (bpp : Nat) (v : Nat → Level) : Byte := composed (slotM bpp) v (ppb bpp)

/-- `RawL` (42_packer.md R82). -/
def rawL (bpp : Nat) (v : Nat → Level) : Byte := composed (slotL bpp) v (ppb bpp)

/-- `PackM` (42_packer.md R81, R83). -/
def packM (bpp : Nat) (v : Nat → Level) : Byte := rawM bpp v ^^^ 0xFF

/-- `PackL` (42_packer.md R82, R83). -/
def packL (bpp : Nat) (v : Nat → Level) : Byte := rawL bpp v ^^^ 0xFF

/-- `byte(k)` of `EncodeCore` (43_control.md R89, 42_packer.md R87). -/
def outByte (last : Nat) (l : Latch) (src : Nat → Word) (k : Nat) : Byte :=
  let v := fun i => lev last l src (k * ppb l.bpp.toNat + i)
  if l.bord = 0 then packM l.bpp.toNat v else packL l.bpp.toNat v

/-- `EncodeCore(cfg, src)` (43_control.md R89), on an instance with ROT_LAST_X = `last`. -/
def encodeCore (last : Nat) (l : Latch) (src : Nat → Word) : List Byte :=
  (List.range (outLen (l.seqLen last) l.bpp.toNat)).map (outByte last l src)

end Sys2Proof.Machine
end

