-- ==== Sys2Proof/Safety.lean ====
section
/-! DEFINITION. What a safe use of the block is, in the words of the spec's duties of the host, and the
invariant of the machine. -/

namespace Sys2Proof

open Sys2Proof.Machine

/-- The host operations allowed during a run (70_reset_and_hazards.md R115): reading a register, and
the platform's reset. -/
def HostOp.allowedWhileBusy : HostOp → Bool
  | .rd _ => true
  | .poll => true
  | .reset => true
  | .wr _ _ => false
  | .sw _ _ => false
  | .lw _ => false
  | .lb _ => false
  | .sb _ _ => false

/-- Every SRC word that a run of the latched configuration reads has been written since reset
(70_reset_and_hazards.md R116). -/
def SourceLoaded (s : State) (l : Latch) : Prop :=
  ∀ n, n < l.runLen → (memRead s.src (scanAddr l n)).isSome = true

/-- The thresholds are in the order the source's function asks for (70_reset_and_hazards.md R119). -/
def ThresholdsOrdered (t : Thr2) : Prop := t.t2 ≤ t.t1 ∧ t.t1 ≤ t.t0

/-- The configuration a START with the given qualifiers would latch (10_state.md R22). -/
def latchOf (rot : BitVec 1) (bord bpp : BitVec 2) (s : State) : Latch where
  bpp := bpp
  bord := bord
  rot := rot
  w := s.width
  h := s.height
  t := s.thr1
  thr2 := s.thr2

/-- The part of the invariant that concerns a run in progress: the latched configuration passed its
checks (43_control.md R88); SEQ is the number of elements produced (10_state.md R23); CHI and OPTR are
the place in the current chunk and the number of bytes stored (R24, 43_control.md R90); the level on
its way to the packer fits `bpp` bits (30_encoding.md R56); every byte below OPTR is written. -/
structure RunInv (s : State) : Prop where
  accepted : s.latch.refusal = 0
  seqInside : s.phase ≠ .finish → s.seq.toNat < s.latch.runLen
  seqAtEnd : s.phase = .finish → s.seq.toNat = s.latch.runLen
  chiIsRest : s.chi.toNat = s.seq.toNat % ppb s.latch.bpp.toNat
  optrIsQuotient : s.optr.toNat = s.seq.toNat / ppb s.latch.bpp.toNat
  levelFits : s.phase = .pack → s.level.toNat < 2 ^ s.latch.bpp.toNat
  outListed : ∀ k, k < s.optr.toNat → (memRead s.out k).isSome = true

/-- The invariant of the machine: both memories are canonical; ERR is non-zero exactly in ERROR
(10_state.md R13); OUTLEN is 0 but in DONE (R18), where it is the number of bytes of the run
(43_control.md R91), all of them written; and a run in progress is as `RunInv` says. -/
structure Inv (s : State) : Prop where
  srcCanonical : Memory.wf srcSize s.src
  outCanonical : Memory.wf outSize s.out
  errExactlyInError : s.err ≠ 0 ↔ s.status = .error
  outlenZero : s.status ≠ .done → s.outlen = 0
  doneAccepted : s.status = .done → s.latch.refusal = 0
  doneLength : s.status = .done → s.outlen.toNat = s.latch.runBytes
  doneListed : s.status = .done → ∀ k, k < s.outlen.toNat → (memRead s.out k).isSome = true
  running : s.status = .busy → RunInv s

end Sys2Proof
end

