-- ==== Sys2Proof/Certificates/Slice0/Obligations.lean ====
section
/-! DEFINITION. The statements for the provers. Each is about every state it does not exclude by a
hypothesis, reachable or not. -/

open Sys2Proof Sys2Proof.Machine

/-! ### Encoding -/

/-- 30_encoding.md R50. A control word selects a slot's row exactly when the masked bits match the row
(the masks and matches of R51), and issues ENCODE, with the fields of the word, exactly when bit 0 is
set. -/
def Obligations.ControlWordSelectsRowsByMask : Prop :=
  (∀ (cw : Word) (i : Instr), i.slot ≠ .command →
    (decodeSlot i.slot cw = some i ↔ cw &&& i.mask = i.pattern)) ∧
  (∀ cw : Word,
    (cw &&& 0x00000001 = 0 → commandOf cw = none) ∧
    (cw &&& 0x00000001 = 0x00000001 →
      commandOf cw
        = some (.encode (cw.extractLsb' 1 1) (cw.extractLsb' 2 2) (cw.extractLsb' 4 2))))

/-- Decoding and encoding agree (30_encoding.md R48 to R51): for every well-formed control word, for
every row with every operand, and, up to the reserved bits, for every 32-bit word. -/
def Obligations.EncodeAndDecodeAgree : Prop :=
  (∀ c : ControlWord, c.wf = true → decodeControl (encodeControl c) = c) ∧
  (∀ i : Instr, decodeSlot i.slot (encodeRow i) = some i) ∧
  (∀ cw : Word, encodeControl (decodeControl cw) = cw &&& 0x0000003F)

/-- Bits 31:6 play no part in decoding and none in the storing of CTRL, and every value of the other
bits selects a row in every slot but the command slot, where START may be 0 (30_encoding.md R54, whose
last sentence, that every value of `cw[5:0]` is covered, the spec marks as derived). -/
def Obligations.ReservedControlBitsAreIgnored : Prop :=
  (∀ (cw : Word) (sl : Slot), decodeSlot sl cw = decodeSlot sl (cw &&& 0x0000003F)) ∧
  (∀ (cw : Word) (s : State), writeReg 0 cw s = writeReg 0 (cw &&& 0x0000003F) s) ∧
  decodeControl 0xFFFFFFD1 = decodeControl 0x00000011 ∧
  (∀ (cw : Word) (sl : Slot), sl ≠ .command → ∃ i, decodeSlot sl cw = some i ∧ i.slot = sl)

/-- 30_encoding.md R51. Words written out from the spec's table of legal ENCODE words and its rows. -/
def Obligations.WrittenOutWordsDecode : Prop :=
  decodeControl 0x00000011 = ⟨true, .qnt1, .mapn, .pckm⟩ ∧
  decodeControl 0x00000013 = ⟨true, .qnt1, .mapr, .pckm⟩ ∧
  decodeControl 0x00000015 = ⟨true, .qnt1, .mapn, .pckl⟩ ∧
  decodeControl 0x00000027 = ⟨true, .qnt2, .mapr, .pckl⟩ ∧
  decodeControl 0x00000019 = ⟨true, .qnt1, .mapn, .rsvBord2⟩ ∧
  decodeControl 0x0000003E = ⟨false, .rsvBpp3, .mapr, .rsvBord3⟩ ∧
  decodeTableWord 32 0x00000023 = some (.encode 1 0 2) ∧
  decodeTableWord 8 0x00000010 = some .qnt1

/-! ### The step -/

/-- A step runs the selected instruction: a write of CTRL with START set, when it lands, runs ENCODE
with the word's fields on the state without that operation; a stage of a run, when no host operation
lands, runs the operation that the latched configuration selects in that stage's slot, on the state in
which the oldest pending operation has a block step less to wait; the last stage completes the run; and
an idle block with no host operation waits (43_control.md R88, R90, R92; 30_encoding.md R50). When host
operations land is the model's choice (log entry 7), as is the split of the step into stages (log entry
6). -/
def Obligations.StepRunsTheSelectedInstruction : Prop :=
  ∀ s : State,
    (∀ (wait : Nat) (v : Word) (rest : List HostEvent),
      s.pending = ⟨wait, .wr 0 v⟩ :: rest → (s.status = .busy → wait = 0) → v.getLsbD 0 = true →
      step s = exec (.encode (v.extractLsb' 1 1) (v.extractLsb' 2 2) (v.extractLsb' 4 2))
        { s with pending := rest }) ∧
    (s.status = .busy → (∀ e rest, s.pending = e :: rest → e.wait ≠ 0) →
      (s.phase = .map → step s = exec (if s.latch.rot = 0 then .mapn else .mapr) (passBlockStep s)) ∧
      (s.phase = .quantise → s.latch.bpp = 0 → step s = exec .rsvBpp0 (passBlockStep s)) ∧
      (s.phase = .quantise → s.latch.bpp = 1 → step s = exec .qnt1 (passBlockStep s)) ∧
      (s.phase = .quantise → s.latch.bpp = 2 → step s = exec .qnt2 (passBlockStep s)) ∧
      (s.phase = .quantise → s.latch.bpp = 3 → step s = exec .rsvBpp3 (passBlockStep s)) ∧
      (s.phase = .pack → s.latch.bord = 0 → step s = exec .pckm (passBlockStep s)) ∧
      (s.phase = .pack → s.latch.bord = 1 → step s = exec .pckl (passBlockStep s)) ∧
      (s.phase = .pack → s.latch.bord = 2 → step s = exec .rsvBord2 (passBlockStep s)) ∧
      (s.phase = .pack → s.latch.bord = 3 → step s = exec .rsvBord3 (passBlockStep s)) ∧
      (s.phase = .finish → step s = .next (finishRun (passBlockStep s)))) ∧
    (s.pending = [] → s.status ≠ .busy → step s = .next s)

/-- No step of the machine stops it (60_exceptions.md R98: no other operation and no step of a run
raises anything; a refused START is a next state). -/
def Obligations.EveryStepAnswersANextState : Prop :=
  (∀ s : State, ∃ t, step s = .next t) ∧ ∀ (i : Instr) (s : State), ∃ t, exec i s = .next t

/-! ### ENCODE and the configuration error -/

/-- A host write of CTRL with bit 0 set is ENCODE with the fields of the word, one atomic action: nothing
while BUSY; else it stores the qualifiers, latches the configuration, and, with `e` the causes that
apply, either enters the error or starts the run (43_control.md R88, 60_exceptions.md R103). Every other
field is unchanged, but for the stage that comes next, which is the model's own (log entry 6). That a
refused START overwrites the latch and leaves SEQ, CHI, ACC and OPTR is the model's reading of R88 beside
10_state.md R23 to R25 and R103 (log entry 12). -/
def Obligations.EncodeIsOneAtomicAction : Prop :=
  (∀ (s : State) (cw : Word), nextHostOp s = some (.wr 0 cw) → cw.getLsbD 0 = true →
    step s = exec (.encode (cw.extractLsb' 1 1) (cw.extractLsb' 2 2) (cw.extractLsb' 4 2))
      (takeHostOp s)) ∧
  ∀ (rot : BitVec 1) (bord bpp : BitVec 2) (s : State),
    (s.status = .busy → exec (.encode rot bord bpp) s = .next s) ∧
    (s.status ≠ .busy →
      ∃ e : BitVec 3,
        e = (if bpp = 0 ∨ bpp = 3 then 0b001 else 0) ||| (if bord = 2 ∨ bord = 3 then 0b010 else 0)
            ||| (if Config.geomCheck = true
                    ∧ ¬ ((s.width = 800 ∧ s.height = 480) ∨ (s.width = 480 ∧ s.height = 800))
                  then 0b100 else 0) ∧
        (e ≠ 0 →
          exec (.encode rot bord bpp) s = .next
            { s with
              ctrl := ⟨rot, bord, bpp⟩
              latch := ⟨bpp, bord, rot, s.width, s.height, s.thr1, s.thr2⟩
              err := e, outlen := 0, status := .error }) ∧
        (e = 0 → ∃ p : Phase,
          exec (.encode rot bord bpp) s = .next
            { s with
              ctrl := ⟨rot, bord, bpp⟩
              latch := ⟨bpp, bord, rot, s.width, s.height, s.thr1, s.thr2⟩
              err := 0, outlen := 0, seq := 0, chi := 0, acc := 0, optr := 0, status := .busy
              phase := p }))

/-- ENCODE completes: outside a run, with a recognised BPP and BORD and a supported geometry, it starts
a run whatever GEOM_CHECK is (43_control.md R88). The fetch comes next, the model's own stage (log entry
6). -/
def Obligations.EncodeStartsARun : Prop :=
  ∀ (rot : BitVec 1) (bord bpp : BitVec 2) (s : State),
    s.status ≠ .busy → (bpp = 1 ∨ bpp = 2) → (bord = 0 ∨ bord = 1) →
    ((s.width = 800 ∧ s.height = 480) ∨ (s.width = 480 ∧ s.height = 800)) →
    exec (.encode rot bord bpp) s = .next
      { s with
        ctrl := ⟨rot, bord, bpp⟩
        latch := ⟨bpp, bord, rot, s.width, s.height, s.thr1, s.thr2⟩
        err := 0, outlen := 0, seq := 0, chi := 0, acc := 0, optr := 0, status := .busy
        phase := .map }

/-- 60_exceptions.md R99 to R102. After a START that is accepted, each bit of ERR is set exactly when
its cause applies, whatever the others are, and STATE is ERROR exactly when some bit is set, BUSY
otherwise. -/
def Obligations.ErrHoldsExactlyTheCauses : Prop :=
  ∀ (rot : BitVec 1) (bord bpp : BitVec 2) (s : State), s.status ≠ .busy →
    ∃ t, exec (.encode rot bord bpp) s = .next t ∧
      (t.err.getLsbD 0 = true ↔ (bpp = 0 ∨ bpp = 3)) ∧
      (t.err.getLsbD 1 = true ↔ (bord = 2 ∨ bord = 3)) ∧
      (t.err.getLsbD 2 = true ↔
        (Config.geomCheck = true
          ∧ ¬ ((s.width = 800 ∧ s.height = 480) ∨ (s.width = 480 ∧ s.height = 800)))) ∧
      (t.err ≠ 0 → t.status = .error) ∧ (t.err = 0 → t.status = .busy)

/-- The reserved rows take the error entry with their own cause set and the other causes of the latched
configuration beside it, and change nothing else (60_exceptions.md R99, R100, R102, R103). That a
reserved row is an operation of its own, with an effect in every state, is the model's choice (log
entry 10). -/
def Obligations.ReservedRowsEnterTheError : Prop :=
  (∀ i, i = Instr.rsvBpp0 ∨ i = Instr.rsvBpp3 → ∀ s : State, ∃ e : BitVec 3,
    exec i s = .next { s with err := e, outlen := 0, status := .error } ∧
    e.getLsbD 0 = true ∧
    (e.getLsbD 1 = true ↔ (s.latch.bord = 2 ∨ s.latch.bord = 3)) ∧
    (e.getLsbD 2 = true ↔
      (Config.geomCheck = true
        ∧ ¬ ((s.latch.w = 800 ∧ s.latch.h = 480) ∨ (s.latch.w = 480 ∧ s.latch.h = 800))))) ∧
  (∀ i, i = Instr.rsvBord2 ∨ i = Instr.rsvBord3 → ∀ s : State, ∃ e : BitVec 3,
    exec i s = .next { s with err := e, outlen := 0, status := .error } ∧
    (e.getLsbD 0 = true ↔ (s.latch.bpp = 0 ∨ s.latch.bpp = 3)) ∧
    e.getLsbD 1 = true ∧
    (e.getLsbD 2 = true ↔
      (Config.geomCheck = true
        ∧ ¬ ((s.latch.w = 800 ∧ s.latch.h = 480) ∨ (s.latch.w = 480 ∧ s.latch.h = 800)))))

/-- A START that selects a reserved row does what that row does once the configuration is stored and
latched (30_encoding.md R52, R53; 60_exceptions.md R99, R100; log entry 10). -/
def Obligations.EncodeOfAReservedSelectionIsItsRow : Prop :=
  ∀ (rot : BitVec 1) (bord bpp : BitVec 2) (s : State), s.status ≠ .busy →
    (bpp = 0 → exec (.encode rot bord bpp) s
      = exec .rsvBpp0 (latchConfig (storeCtrl rot bord bpp s))) ∧
    (bpp = 3 → exec (.encode rot bord bpp) s
      = exec .rsvBpp3 (latchConfig (storeCtrl rot bord bpp s))) ∧
    (bord = 2 → exec (.encode rot bord bpp) s
      = exec .rsvBord2 (latchConfig (storeCtrl rot bord bpp s))) ∧
    (bord = 3 → exec (.encode rot bord bpp) s
      = exec .rsvBord3 (latchConfig (storeCtrl rot bord bpp s)))

/-! ### Quantiser -/

/-- 40_quantizer.md R65. QNT1 on the fetched pixel: 1 when all three channels are at or below the
latched threshold, else 0; nothing else changes but the stage that comes next, which is the model's own
(log entry 6). -/
def Obligations.Qnt1QuantisesThePixel : Prop :=
  (∀ cw : Word, decodeSlot .quantiser cw = some .qnt1 ↔ cw &&& 0x00000030 = 0x00000010) ∧
  ∀ s : State, s.status = .busy → ∃ p : Phase,
    exec .qnt1 s = .next
      { s with
        level :=
          if s.pixel.toNat % 256 ≤ s.latch.t.toNat ∧ s.pixel.toNat / 256 % 256 ≤ s.latch.t.toNat
              ∧ s.pixel.toNat / 65536 % 256 ≤ s.latch.t.toNat
          then 1 else 0
        phase := p }

/-- 40_quantizer.md R66, R67. QNT2 on the fetched pixel, for latched thresholds in any order: the first
of T0, T1, T2 that some channel exceeds gives 0, 1, 2, and none gives 3; nothing else changes but the
stage that comes next, which is the model's own (log entry 6). -/
def Obligations.Qnt2QuantisesThePixel : Prop :=
  (∀ cw : Word, decodeSlot .quantiser cw = some .qnt2 ↔ cw &&& 0x00000030 = 0x00000020) ∧
  ∀ s : State, s.status = .busy → ∃ p : Phase,
    exec .qnt2 s = .next
      { s with
        level :=
          if s.latch.thr2.t0.toNat < s.pixel.toNat % 256
              ∨ s.latch.thr2.t0.toNat < s.pixel.toNat / 256 % 256
              ∨ s.latch.thr2.t0.toNat < s.pixel.toNat / 65536 % 256 then 0
          else if s.latch.thr2.t1.toNat < s.pixel.toNat % 256
              ∨ s.latch.thr2.t1.toNat < s.pixel.toNat / 256 % 256
              ∨ s.latch.thr2.t1.toNat < s.pixel.toNat / 65536 % 256 then 1
          else if s.latch.thr2.t2.toNat < s.pixel.toNat % 256
              ∨ s.latch.thr2.t2.toNat < s.pixel.toNat / 256 % 256
              ∨ s.latch.thr2.t2.toNat < s.pixel.toNat / 65536 % 256 then 2
          else 3
        phase := p }

/-- 40_quantizer.md R64. `Quant` dispatches on the latched BPP to the two rules over the first three
channels of the pixel word; the alpha channel is ignored; and a run of a machine that meets the
invariant has a latched BPP of 1 or 2. -/
def Obligations.QuantTakesTheFirstThreeChannels : Prop :=
  (∀ (l : Latch) (p : Word), l.bpp = 1 →
    (quant l p).toNat =
      if p.toNat % 256 ≤ l.t.toNat ∧ p.toNat / 256 % 256 ≤ l.t.toNat
          ∧ p.toNat / 65536 % 256 ≤ l.t.toNat
      then 1 else 0) ∧
  (∀ (l : Latch) (p : Word), l.bpp = 2 →
    quant l p
      = qnt2 (BitVec.ofNat 8 p.toNat) (BitVec.ofNat 8 (p.toNat / 256))
          (BitVec.ofNat 8 (p.toNat / 65536)) l.thr2.t0 l.thr2.t1 l.thr2.t2) ∧
  (∀ (l : Latch) (p q : Word), p &&& 0x00FFFFFF = q &&& 0x00FFFFFF → quant l p = quant l q) ∧
  (∀ s : State, Inv s → s.status = .busy → s.latch.bpp = 1 ∨ s.latch.bpp = 2)

/-- QNT1 is the any-exceeds rule with one cut point, and both operations are monotone: raising channels
never gives a larger level (40_quantizer.md R68, which the spec marks as derived from R65 and R66). -/
def Obligations.QuantisersAreOneMonotoneFamily : Prop :=
  (∀ c0 c1 c2 t : Byte, qnt1 c0 c1 c2 t = if t < c0 ∨ t < c1 ∨ t < c2 then 0 else 1) ∧
  (∀ c0 c1 c2 d0 d1 d2 t : Byte, c0 ≤ d0 → c1 ≤ d1 → c2 ≤ d2 →
    qnt1 d0 d1 d2 t ≤ qnt1 c0 c1 c2 t) ∧
  (∀ c0 c1 c2 d0 d1 d2 t0 t1 t2 : Byte, c0 ≤ d0 → c1 ≤ d1 → c2 ≤ d2 →
    qnt2 d0 d1 d2 t0 t1 t2 ≤ qnt2 c0 c1 c2 t0 t1 t2)

/-! ### Mapper -/

/-- MAPN loads the written pixel word at `x = n mod W`, `y = n div W`, with `n` the scan index SEQ;
nothing else changes but the stage that comes next, which is the model's own (41_mapper.md R71 and R73,
the latter marked derived by the spec; log entry 6). -/
def Obligations.MapnLoadsTheRowMajorPixel : Prop :=
  (∀ cw : Word, decodeSlot .mapper cw = some .mapn ↔ cw &&& 0x00000002 = 0x00000000) ∧
  ∀ (s : State) (v : Word), s.status = .busy →
    memRead s.src
      (s.seq.toNat / s.latch.w.toNat * s.latch.w.toNat + s.seq.toNat % s.latch.w.toNat) = some v →
    exec .mapn s = .next { s with pixel := v, phase := .quantise }

/-- MAPR loads the written pixel word at `x = W - 1 - n div H`, `y = n mod H`, with `n` the scan index
SEQ; nothing else changes but the stage that comes next, which is the model's own (41_mapper.md R72 and
R73, the latter marked derived by the spec; log entry 6). The address has 20 bits; in a run it never
needs more (`RunAddressesStayInRange`). -/
def Obligations.MaprLoadsTheRotatedPixel : Prop :=
  (∀ cw : Word, decodeSlot .mapper cw = some .mapr ↔ cw &&& 0x00000002 = 0x00000002) ∧
  ∀ (s : State) (v : Word), s.status = .busy →
    memRead s.src
      ((s.seq.toNat % s.latch.h.toNat * s.latch.w.toNat
        + (s.latch.w.toNat - 1 - s.seq.toNat / s.latch.h.toNat)) % 1048576) = some v →
    exec .mapr s = .next { s with pixel := v, phase := .quantise }

/-- A fetch of a word nothing has written since reset completes too, with a free word for the pixel
(70_reset_and_hazards.md R113, R116; that the free word is drawn anew at each read is the model's
choice, log entry 3). -/
def Obligations.FetchOfAnUnwrittenWordIsFree : Prop :=
  ∀ s : State, s.status = .busy →
    (memRead s.src
      (s.seq.toNat / s.latch.w.toNat * s.latch.w.toNat + s.seq.toNat % s.latch.w.toNat) = none →
      exec .mapn s = .next
        { s with
          pixel := Config.freeWord s.draws, draws := s.draws + 1, phase := .quantise }) ∧
    (memRead s.src
      ((s.seq.toNat % s.latch.h.toNat * s.latch.w.toNat
        + (s.latch.w.toNat - 1 - s.seq.toNat / s.latch.h.toNat)) % 1048576) = none →
      exec .mapr s = .next
        { s with
          pixel := Config.freeWord s.draws, draws := s.draws + 1, phase := .quantise })

/-- 41_mapper.md R71. MAPN is selected by ROT 0; its closed form gives the source's loop nest, rows
ascending, columns ascending inside a row; and the SRC address of element `n` is `n`. -/
def Obligations.NonRotatedScanIsRowMajor : Prop :=
  (∀ cw : Word, decodeSlot .mapper cw = some .mapn ↔ cw &&& 0x00000002 = 0x00000000) ∧
  ∀ last w h : Nat,
    (List.range (seqLen last w h false)).map (fun n => coordN n w)
      = (List.range h).flatMap (fun y => (List.range w).map (fun x => (x, y))) ∧
    ∀ n, srcAddr w (coordN n w) = n

/-- 41_mapper.md R72. MAPR is selected by ROT 1; its closed form gives the source's loop nest, columns
from the last down to ROT_LAST_X, rows ascending inside a column. -/
def Obligations.RotatedScanIsColumnsDescending : Prop :=
  (∀ cw : Word, decodeSlot .mapper cw = some .mapr ↔ cw &&& 0x00000002 = 0x00000002) ∧
  ∀ last w h : Nat,
    (List.range (seqLen last w h true)).map (fun n => coordR n w h)
      = (List.range (w - last)).flatMap (fun c => (List.range h).map (fun y => (w - 1 - c, y)))

/-- In both modes no coordinate is visited twice; the non-rotated scan visits the whole grid, the rotated
one the columns from ROT_LAST_X on (41_mapper.md R74, which the spec marks as derived). -/
def Obligations.ScanVisitsEachPixelOnce : Prop :=
  ∀ last w h : Nat,
    (∀ n m, n < seqLen last w h false → m < seqLen last w h false → coordN n w = coordN m w → n = m) ∧
    (∀ n m, n < seqLen last w h true → m < seqLen last w h true →
      coordR n w h = coordR m w h → n = m) ∧
    (∀ x y, (∃ n, n < seqLen last w h false ∧ coordN n w = (x, y)) ↔ (x < w ∧ y < h)) ∧
    (∀ x y, (∃ n, n < seqLen last w h true ∧ coordR n w h = (x, y)) ↔ (last ≤ x ∧ x < w ∧ y < h))

/-- The loads of a run are of distinct SRC words below `W * H`, in the non-rotated mode word `n` for
element `n`, and no length computed from the registers exceeds its memory (00_scope.md R8, 20_memory.md
R36, 41_mapper.md R73, in the parts the spec marks as derived). -/
def Obligations.RunAddressesStayInRange : Prop :=
  ∀ (last : Nat) (l : Latch),
    (∀ n, n < l.seqLen last → scanAddr l n < l.w.toNat * l.h.toNat) ∧
    (∀ n m, n < l.seqLen last → m < l.seqLen last → scanAddr l n = scanAddr l m → n = m) ∧
    (l.rot = 0 → ∀ n, scanAddr l n = n) ∧
    l.seqLen last ≤ 1046529 ∧
    (l.bpp = 1 ∨ l.bpp = 2 → outLen (l.seqLen last) l.bpp.toNat ≤ 261633)

/-! ### Packer -/

/-- PCKM on one scan element: the level goes to the slot `(ppb - 1 - CHI) * bpp` of ACC and SEQ counts
on; a full chunk is inverted, stored at OPTR and begun anew; nothing else changes but the stage that
comes next (43_control.md R90 from the quantised level on; that this is a step of its own, and the stage,
are the model's, log entry 6). -/
def Obligations.PckmPacksOneElement : Prop :=
  (∀ cw : Word, decodeSlot .packer cw = some .pckm ↔ cw &&& 0x0000000C = 0x00000000) ∧
  ∀ s : State, s.status = .busy →
    ∃ acc : Byte,
      acc = s.acc ||| (s.level.setWidth 8
        <<< ((8 / s.latch.bpp.toNat - 1 - s.chi.toNat) * s.latch.bpp.toNat)) ∧
      (s.chi.toNat ≠ 8 / s.latch.bpp.toNat - 1 →
        exec .pckm s = .next
          { s with
            acc := acc, chi := s.chi + 1, seq := s.seq + 1
            phase := if (s.seq + 1).toNat < s.latch.runLen then .map else .finish }) ∧
      (s.chi.toNat = 8 / s.latch.bpp.toNat - 1 →
        exec .pckm s = .next
          { s with
            out := memWrite s.out s.optr.toNat (~~~ acc), optr := s.optr + 1
            acc := 0, chi := 0, seq := s.seq + 1
            phase := if (s.seq + 1).toNat < s.latch.runLen then .map else .finish })

/-- PCKL on one scan element: as PCKM with the slot `CHI * bpp` (43_control.md R90 from the quantised
level on; log entry 6). -/
def Obligations.PcklPacksOneElement : Prop :=
  (∀ cw : Word, decodeSlot .packer cw = some .pckl ↔ cw &&& 0x0000000C = 0x00000004) ∧
  ∀ s : State, s.status = .busy →
    ∃ acc : Byte,
      acc = s.acc ||| (s.level.setWidth 8 <<< (s.chi.toNat * s.latch.bpp.toNat)) ∧
      (s.chi.toNat ≠ 8 / s.latch.bpp.toNat - 1 →
        exec .pckl s = .next
          { s with
            acc := acc, chi := s.chi + 1, seq := s.seq + 1
            phase := if (s.seq + 1).toNat < s.latch.runLen then .map else .finish }) ∧
      (s.chi.toNat = 8 / s.latch.bpp.toNat - 1 →
        exec .pckl s = .next
          { s with
            out := memWrite s.out s.optr.toNat (~~~ acc), optr := s.optr + 1
            acc := 0, chi := 0, seq := s.seq + 1
            phase := if (s.seq + 1).toNat < s.latch.runLen then .map else .finish })

/-- 42_packer.md R81. PCKM is selected by BORD 0, and `PackM` as a number: the fields add up, the first
pixel in the most significant one, and the byte is 255 less the sum. -/
def Obligations.PackMIsTheInvertedSumOfFields : Prop :=
  (∀ cw : Word, decodeSlot .packer cw = some .pckm ↔ cw &&& 0x0000000C = 0x00000000) ∧
  ∀ v : Nat → Level,
    ((∀ i, (v i).toNat < 2) →
      (packM 1 v).toNat = 255 - (128 * (v 0).toNat + 64 * (v 1).toNat + 32 * (v 2).toNat
        + 16 * (v 3).toNat + 8 * (v 4).toNat + 4 * (v 5).toNat + 2 * (v 6).toNat + (v 7).toNat)) ∧
    (packM 2 v).toNat
      = 255 - (64 * (v 0).toNat + 16 * (v 1).toNat + 4 * (v 2).toNat + (v 3).toNat)

/-- 42_packer.md R82. PCKL is selected by BORD 1, and `PackL` as a number: the first pixel in the least
significant field. -/
def Obligations.PackLIsTheInvertedSumOfFields : Prop :=
  (∀ cw : Word, decodeSlot .packer cw = some .pckl ↔ cw &&& 0x0000000C = 0x00000004) ∧
  ∀ v : Nat → Level,
    ((∀ i, (v i).toNat < 2) →
      (packL 1 v).toNat = 255 - ((v 0).toNat + 2 * (v 1).toNat + 4 * (v 2).toNat + 8 * (v 3).toNat
        + 16 * (v 4).toNat + 32 * (v 5).toNat + 64 * (v 6).toNat + 128 * (v 7).toNat)) ∧
    (packL 2 v).toNat
      = 255 - ((v 0).toNat + 4 * (v 1).toNat + 16 * (v 2).toNat + 64 * (v 3).toNat)

/-- In the raw byte the field of each pixel, `bpp` bits from its slot up (42_packer.md R79), holds the
pixel's level in natural binary, under both bit orders: R85, "that the level is not bit-reversed is this
spec's reading" (log entry 11). -/
def Obligations.EachFieldHoldsItsLevel : Prop :=
  ∀ (bpp : Nat) (v : Nat → Level), (bpp = 1 ∨ bpp = 2) → (∀ i, (v i).toNat < 2 ^ bpp) →
    ∀ i, i < 8 / bpp →
      (rawM bpp v).toNat / 2 ^ ((8 / bpp - 1 - i) * bpp) % 2 ^ bpp = (v i).toNat ∧
      (rawL bpp v).toNat / 2 ^ (i * bpp) % 2 ^ bpp = (v i).toNat

/-- The laws of the packer (42_packer.md R86, which the spec marks as derived). (a) A byte is the
complement of its raw byte. (b) Replacing every level of a full chunk by its complement gives the old
raw byte as the new output, and never does so for a short chunk. (c) The raw byte in LSB order is the
raw byte in MSB order of the reversed chunk, at 1 bpp its bit reversal. (d) A byte of the output is a
function of its own chunk. -/
def Obligations.PackerLawsOfComplementAndOrder : Prop :=
  ∀ (bpp : Nat) (v : Nat → Level), (bpp = 1 ∨ bpp = 2) → (∀ i, (v i).toNat < 2 ^ bpp) →
    ((packM bpp v).toNat = 255 - (rawM bpp v).toNat ∧
      (packL bpp v).toNat = 255 - (rawL bpp v).toNat) ∧
    (packM bpp (fun i => BitVec.ofNat 2 (2 ^ bpp - 1 - (v i).toNat)) = rawM bpp v ∧
      packL bpp (fun i => BitVec.ofNat 2 (2 ^ bpp - 1 - (v i).toNat)) = rawL bpp v) ∧
    (∀ r, r < 8 / bpp → (∀ i, r ≤ i → v i = 0) →
      packM bpp (fun i => if i < r then BitVec.ofNat 2 (2 ^ bpp - 1 - (v i).toNat) else 0)
        ≠ rawM bpp v ∧
      packL bpp (fun i => if i < r then BitVec.ofNat 2 (2 ^ bpp - 1 - (v i).toNat) else 0)
        ≠ rawL bpp v) ∧
    rawL bpp v = rawM bpp (fun i => v (8 / bpp - 1 - i)) ∧
    (bpp = 1 → ∀ i, i < 8 → (rawL 1 v).getLsbD i = (rawM 1 v).getLsbD (7 - i)) ∧
    (∀ u : Nat → Level, (∀ i, i < 8 / bpp → u i = v i) →
      packM bpp u = packM bpp v ∧ packL bpp u = packL bpp v)

/-- 42_packer.md R84. When the number of scan elements is no multiple of the pixels in a byte, the last
byte is made from the remaining `r` levels and zeros, and in the emitted byte the padded bits, the low
ones under PCKM and the high ones under PCKL, are ones. -/
def Obligations.PaddedBitsAreOnes : Prop :=
  ∀ (last : Nat) (l : Latch) (src : Nat → Word) (bpp ppb r k : Nat),
    bpp = l.bpp.toNat → (bpp = 1 ∨ bpp = 2) → (l.bord = 0 ∨ l.bord = 1) → ppb = 8 / bpp →
    r = l.seqLen last % ppb → r ≠ 0 → k = outLen (l.seqLen last) bpp - 1 →
    k * ppb + r = l.seqLen last ∧
    (∀ i, r ≤ i → lev last l src (k * ppb + i) = 0) ∧
    (l.bord = 0 →
      (outByte last l src k).toNat % 2 ^ ((ppb - r) * bpp) = 2 ^ ((ppb - r) * bpp) - 1) ∧
    (l.bord = 1 →
      (outByte last l src k).toNat / 2 ^ (r * bpp) = 2 ^ ((ppb - r) * bpp) - 1)

/-- 42_packer.md R80. `OutLen` is the least number of bytes that hold `n` elements, `(n + ppb - 1) div
ppb`. -/
def Obligations.OutLenIsTheCeiling : Prop :=
  ∀ n bpp : Nat, (bpp = 1 ∨ bpp = 2) →
    outLen n bpp = (n + 8 / bpp - 1) / (8 / bpp) ∧
    n ≤ outLen n bpp * (8 / bpp) ∧ ∀ m, n ≤ m * (8 / bpp) → outLen n bpp ≤ m

/-! ### Stage operations: their order, outside a run, and frames of all instructions -/

/-- During a run the quantiser comes after the mapper and the packer after the quantiser; after the
packer the next element is fetched while elements are left, else the run is completed (43_control.md
R90, R92). The split of R90's step into these stages is the model's choice (log entry 6). -/
def Obligations.StagesFollowTheReferenceOrder : Prop :=
  ∀ s : State, s.status = .busy →
    (∀ i, i = Instr.mapn ∨ i = Instr.mapr → ∃ t, exec i s = .next t ∧ t.phase = .quantise) ∧
    (∀ i, i = Instr.qnt1 ∨ i = Instr.qnt2 → ∃ t, exec i s = .next t ∧ t.phase = .pack) ∧
    (∀ i, i = Instr.pckm ∨ i = Instr.pckl → ∃ t, exec i s = .next t ∧ t.seq = s.seq + 1 ∧
      (t.seq.toNat < s.latch.runLen → t.phase = .map) ∧
      (s.latch.runLen ≤ t.seq.toNat → t.phase = .finish))

/-- Outside a run, where no command is present, a stage operation has no effect (43_control.md R90,
30_encoding.md R50; that it is then a step that changes nothing is the model's choice, log entry 10). -/
def Obligations.StageOperationsNeedARun : Prop :=
  ∀ (s : State), s.status ≠ .busy →
    ∀ i, i = Instr.qnt1 ∨ i = Instr.qnt2 ∨ i = Instr.mapn ∨ i = Instr.mapr ∨ i = Instr.pckm
        ∨ i = Instr.pckl →
      exec i s = .next s

/-- What no instruction of the block changes (20_memory.md R36, R44; 10_state.md R14 to R17, R20): SRC,
WIDTH, HEIGHT, THR1, THR2 and the host's side; CTRL and the latch but by ENCODE; OUT but by the packer,
and there no byte but the one at OPTR. -/
def Obligations.InstructionsLeaveTheRestAlone : Prop :=
  ∀ (i : Instr) (s : State), ∃ t, exec i s = .next t ∧
    t.src = s.src ∧ t.width = s.width ∧ t.height = s.height ∧ t.thr1 = s.thr1 ∧ t.thr2 = s.thr2 ∧
    t.pending = s.pending ∧ t.replies = s.replies ∧
    (i.slot ≠ .command → t.ctrl = s.ctrl ∧ t.latch = s.latch) ∧
    (i ≠ .pckm → i ≠ .pckl → t.out = s.out) ∧
    (∀ k, k ≠ s.optr.toNat → memRead t.out k = memRead s.out k)

/-! ### The end of a run and the whole run -/

/-- With all elements produced, and no host operation landing, the next step stores the short last byte
if there is one, sets OUTLEN and reports DONE; nothing else changes (43_control.md R90, R91; log entries
6 and 7). -/
def Obligations.FlushAndCompletionEndTheRun : Prop :=
  ∀ s : State, s.status = .busy → s.phase = .finish →
    (∀ e rest, s.pending = e :: rest → e.wait ≠ 0) →
    (s.chi = 0 →
      step s = .next
        { passBlockStep s with
          outlen := BitVec.ofNat 18
            ((s.latch.runLen + 8 / s.latch.bpp.toNat - 1) / (8 / s.latch.bpp.toNat))
          status := .done }) ∧
    (s.chi ≠ 0 →
      step s = .next
        { passBlockStep s with
          out := memWrite s.out s.optr.toNat (~~~ s.acc), optr := s.optr + 1
          outlen := BitVec.ofNat 18
            ((s.latch.runLen + 8 / s.latch.bpp.toNat - 1) / (8 / s.latch.bpp.toNat))
          status := .done })

/-- 43_control.md R91. A START that passes its checks, with every word it reads written, ends in DONE,
whatever the host does meanwhile, short of reset: OUTLEN is the ceiling of the number of scan elements
over the pixels in a byte, OUT begins with `EncodeCore` of the latched configuration and of SRC as it
stood at the START, and the rest of OUT, SRC, ERR and the configuration are as they were. -/
def Obligations.RunWritesEncodeCore : Prop :=
  ∀ (rot : BitVec 1) (bord bpp : BitVec 2) (s : State),
    s.status ≠ .busy → (∀ e, e ∈ s.pending → e.op ≠ .reset) → (bpp = 1 ∨ bpp = 2) →
    (bord = 0 ∨ bord = 1) →
    (Config.geomCheck = true →
      (s.width = 800 ∧ s.height = 480) ∨ (s.width = 480 ∧ s.height = 800)) →
    SourceLoaded s (latchOf rot bord bpp s) →
    ∃ (n : Nat) (t0 t : State) (bytes : List Byte),
      exec (.encode rot bord bpp) s = .next t0 ∧
      t0.status = .busy ∧
      Host.Core.run core n t0 = .next t ∧
      bytes = encodeCore Config.rotLastX.val (latchOf rot bord bpp s)
        (fun a => (memRead s.src a).getD 0) ∧
      t.status = .done ∧ t.err = 0 ∧
      t.outlen.toNat = bytes.length ∧
      t.outlen.toNat
        = ((if rot = 0 then s.width.toNat * s.height.toNat
            else (s.width.toNat - Config.rotLastX.val) * s.height.toNat)
            + 8 / bpp.toNat - 1) / (8 / bpp.toNat) ∧
      (∀ k b, bytes[k]? = some b → memRead t.out k = some b) ∧
      (∀ k, bytes.length ≤ k → memRead t.out k = memRead s.out k) ∧
      t.src = s.src ∧ t.ctrl = ⟨rot, bord, bpp⟩ ∧ t.width = s.width ∧ t.height = s.height ∧
      t.thr1 = s.thr1 ∧ t.thr2 = s.thr2

/-- Two STARTs with the same qualifiers, from states outside a run that agree on the configuration
registers and on the SRC words below `W * H`, all of them written, end alike, whatever the hosts do
meanwhile, short of reset: the same STATE, ERR and OUTLEN, and the same bytes below OUTLEN. Nothing is
asked of OUT, of an earlier run or of the rest of SRC (43_control.md R96, which the spec marks as
derived). -/
def Obligations.EqualInputsGiveEqualOutputs : Prop :=
  ∀ (rot : BitVec 1) (bord bpp : BitVec 2) (s s' : State),
    s.status ≠ .busy → s'.status ≠ .busy → (∀ e, e ∈ s.pending → e.op ≠ .reset) →
    (∀ e, e ∈ s'.pending → e.op ≠ .reset) →
    s.width = s'.width → s.height = s'.height → s.thr1 = s'.thr1 → s.thr2 = s'.thr2 →
    (∀ a, a < s.width.toNat * s.height.toNat →
      (memRead s.src a).isSome = true ∧ memRead s.src a = memRead s'.src a) →
    ∃ (n n' : Nat) (t0 t0' t t' : State),
      exec (.encode rot bord bpp) s = .next t0 ∧ exec (.encode rot bord bpp) s' = .next t0' ∧
      Host.Core.run core n t0 = .next t ∧ Host.Core.run core n' t0' = .next t' ∧
      t.status ≠ .busy ∧ t.status = t'.status ∧ t.err = t'.err ∧ t.outlen = t'.outlen ∧
      ∀ k, k < t.outlen.toNat → memRead t.out k = memRead t'.out k

/-- The thresholds of the width that is not selected have no influence on what a run computes
(43_control.md R97, which the spec marks as derived). -/
def Obligations.UnusedThresholdsHaveNoInfluence : Prop :=
  ∀ (last : Nat) (l : Latch) (src : Nat → Word),
    (l.bpp = 1 → ∀ t : Thr2, encodeCore last { l with thr2 := t } src = encodeCore last l src) ∧
    (l.bpp = 2 → ∀ t : Byte, encodeCore last { l with t := t } src = encodeCore last l src)

/-- 70_reset_and_hazards.md R124. Whatever the host does, short of reset, a run reaches DONE after
finitely many steps; and so a POLL of the host ends, with a value that is not BUSY. -/
def Obligations.EveryRunReachesDone : Prop :=
  ∀ s : State, Inv s → s.status = .busy → (∀ e, e ∈ s.pending → e.op ≠ .reset) →
    (∃ (n : Nat) (t : State), Host.Core.run core n s = .next t ∧ t.status = .done) ∧
    (∀ (wait : Nat) (rest : List HostEvent), s.pending = ⟨wait, .poll⟩ :: rest →
      ∃ (n : Nat) (t : State) (v : Word) (earlier : List Reply),
        Host.Core.run core n s = .next t ∧ t.pending = rest ∧
        t.replies = .reg 1 v :: earlier ∧ v ≠ 1)

/-! ### Invariants and the transitions of STATE -/

/-- The state after reset meets the invariant. -/
def Obligations.ResetMeetsTheInvariant : Prop := Inv State.reset

/-- Every step keeps the invariant: canonical memories, ERR non-zero exactly in ERROR, OUTLEN 0 but in
DONE and there the number of bytes of the run, and the counters of a run in agreement (10_state.md R13,
R18, R23, R24; 43_control.md R90, R91). -/
def Obligations.EveryStepKeepsTheInvariant : Prop :=
  ∀ s t : State, Inv s → step s = .next t → Inv t

/-- The transitions of STATE: reset to IDLE; an accepted START to BUSY or ERROR, ERR saying which; BUSY
stays BUSY at any other host operation and moves to DONE at the completion only; any other host operation
outside a run leaves STATE; and in a run the scan index only counts up by one (43_control.md R92). The
completion is the block's step at the last of the model's own stages, and a block step is a stage (log
entry 6); when host operations land is the model's choice too (log entry 7). -/
def Obligations.StateMovesOnlyByTheTable : Prop :=
  ∀ s t : State, Inv s → step s = .next t →
    (nextHostOp s = some .reset → t.status = .idle) ∧
    (∀ op, nextHostOp s = some op → op ≠ .reset → s.status = .busy → t.status = .busy) ∧
    (nextHostOp s = none → s.status = .busy →
      t.status = if s.phase = .finish then .done else .busy) ∧
    (∀ v, nextHostOp s = some (.wr 0 v) → v.getLsbD 0 = true → s.status ≠ .busy →
      (t.err = 0 ∧ t.status = .busy) ∨ (t.err ≠ 0 ∧ t.status = .error)) ∧
    (nextHostOp s ≠ some .reset → s.status ≠ .busy →
      (∀ v, nextHostOp s = some (.wr 0 v) → v.getLsbD 0 = false) → t.status = s.status) ∧
    (nextHostOp s ≠ some .reset → s.status = .busy →
      t.seq = s.seq ∨ t.seq.toNat = s.seq.toNat + 1)

/-- Nothing but reset changes the latched configuration, CTRL, WIDTH, HEIGHT, the thresholds or SRC
during a run, even where a host operation lands (10_state.md R22, 20_memory.md R44, R45). -/
def Obligations.ConfigurationHoldsForTheRun : Prop :=
  ∀ s : State, s.status = .busy → nextHostOp s ≠ some .reset →
    ∃ t, step s = .next t ∧ t.latch = s.latch ∧ t.src = s.src ∧ t.ctrl = s.ctrl ∧
      t.width = s.width ∧ t.height = s.height ∧ t.thr1 = s.thr1 ∧ t.thr2 = s.thr2

/-! ### The host's operations -/

/-- When a host operation lands: the oldest pending one, at once outside a run, and in a run when no
block steps are left before it; each block step leaves one less. That the host is such a list is the
model's choice (20_memory.md R39, 10_state.md R27; log entry 7). -/
def Obligations.HostOperationsLandInOrder : Prop :=
  ∀ s : State,
    (s.pending = [] → nextHostOp s = none) ∧
    (∀ (wait : Nat) (op : HostOp) (rest : List HostEvent), s.pending = ⟨wait, op⟩ :: rest →
      takeHostOp s = { s with pending := rest } ∧
      (s.status ≠ .busy → nextHostOp s = some op) ∧
      (s.status = .busy → wait = 0 → nextHostOp s = some op) ∧
      (s.status = .busy → wait ≠ 0 →
        nextHostOp s = none ∧ passBlockStep s = { s with pending := ⟨wait - 1, op⟩ :: rest }))

/-- 43_control.md R93. A register read that lands returns the register's fields at their places, reserved
bits and START as 0, and 0 for an unmapped number, in every state, and changes nothing. -/
def Obligations.RegisterReadReturnsTheFields : Prop :=
  ∀ (s : State) (n : Nat), nextHostOp s = some (.rd n) →
    ∃ v : Word,
      step s = .next { takeHostOp s with replies := .reg n v :: s.replies } ∧
      (n = 0 → v = 0#26 ++ s.ctrl.bpp ++ s.ctrl.bord ++ s.ctrl.rot ++ 0#1) ∧
      (n = 1 → s.status = .idle → v = 0) ∧ (n = 1 → s.status = .busy → v = 1) ∧
      (n = 1 → s.status = .done → v = 2) ∧ (n = 1 → s.status = .error → v = 3) ∧
      (n = 2 → v = 0#29 ++ s.err) ∧
      (n = 3 → v = 0#22 ++ s.width) ∧
      (n = 4 → v = 0#22 ++ s.height) ∧
      (n = 5 → v = 0#24 ++ s.thr1) ∧
      (n = 6 → v = 0#8 ++ s.thr2.t2 ++ s.thr2.t1 ++ s.thr2.t0) ∧
      (n = 7 → v = 0#14 ++ s.outlen) ∧
      (8 ≤ n → v = 0)

/-- 43_control.md R94. A register write that lands outside a run stores the fields and drops the other
bits; with START set a write of CTRL stores its fields as ENCODE does first of all; a write of a
read-only or unmapped number is ignored; and while BUSY every register write is ignored. -/
def Obligations.RegisterWriteStoresTheFields : Prop :=
  ∀ (s : State) (n : Nat) (v : Word), nextHostOp s = some (.wr n v) →
    (s.status = .busy → step s = .next (takeHostOp s)) ∧
    (s.status ≠ .busy →
      (n = 0 → v.getLsbD 0 = false →
        step s = .next
          { takeHostOp s with ctrl := ⟨v.extractLsb' 1 1, v.extractLsb' 2 2, v.extractLsb' 4 2⟩ }) ∧
      (n = 0 → v.getLsbD 0 = true →
        step s = exec (.encode (v.extractLsb' 1 1) (v.extractLsb' 2 2) (v.extractLsb' 4 2))
            (takeHostOp s) ∧
        ∃ t, step s = .next t ∧
          t.ctrl = ⟨v.extractLsb' 1 1, v.extractLsb' 2 2, v.extractLsb' 4 2⟩) ∧
      (n = 3 → step s = .next { takeHostOp s with width := BitVec.ofNat 10 v.toNat }) ∧
      (n = 4 → step s = .next { takeHostOp s with height := BitVec.ofNat 10 v.toNat }) ∧
      (n = 5 → step s = .next { takeHostOp s with thr1 := BitVec.ofNat 8 v.toNat }) ∧
      (n = 6 →
        step s = .next
          { takeHostOp s with
            thr2 := ⟨BitVec.ofNat 8 v.toNat, BitVec.ofNat 8 (v.toNat / 256),
              BitVec.ofNat 8 (v.toNat / 65536)⟩ }) ∧
      (n = 1 ∨ n = 2 ∨ 7 ≤ n → step s = .next (takeHostOp s)))

/-- 43_control.md R95. A SRC write that lands outside a run stores the word at its address and leaves
every other word; while BUSY it is ignored. A SRC or OUT read that lands outside a run returns the stored
value and changes nothing; while BUSY, and where nothing has been written since reset, it returns some
value. The count of free values is the model's own (log entries 3 and 4). -/
def Obligations.HostMemoryOperations : Prop :=
  ∀ s : State,
    (∀ (a : SrcIndex) (v : Word), nextHostOp s = some (.sw a v) →
      (s.status = .busy → step s = .next (takeHostOp s)) ∧
      (s.status ≠ .busy → ∃ src, step s = .next { takeHostOp s with src := src } ∧
        memRead src a.toNat = some v ∧ ∀ b, b ≠ a.toNat → memRead src b = memRead s.src b)) ∧
    (∀ a : SrcIndex, nextHostOp s = some (.lw a) →
      (∀ v, s.status ≠ .busy → memRead s.src a.toNat = some v →
        step s = .next { takeHostOp s with replies := .src a v :: s.replies }) ∧
      (s.status = .busy ∨ memRead s.src a.toNat = none → ∃ v d,
        step s = .next { takeHostOp s with replies := .src a v :: s.replies, draws := d })) ∧
    (∀ k : OutIndex, nextHostOp s = some (.lb k) →
      (∀ v, s.status ≠ .busy → memRead s.out k.toNat = some v →
        step s = .next { takeHostOp s with replies := .out k v :: s.replies }) ∧
      (s.status = .busy ∨ memRead s.out k.toNat = none → ∃ v d,
        step s = .next { takeHostOp s with replies := .out k v :: s.replies, draws := d }))

/-- A host write to OUT is ignored in every state (10_state.md R21, 20_memory.md R37; 43_control.md R95
says there is none; log entry 13). -/
def Obligations.HostWriteToOutIsIgnored : Prop :=
  ∀ (s : State) (k : OutIndex) (v : Byte), nextHostOp s = some (.sb k v) →
    step s = .next (takeHostOp s)

/-- 20_memory.md R45. A host operation that lands during a run, short of reset, changes nothing of the
block: only the host's side and the count of free values can differ. Register reads return the current
value, and in a machine that meets the invariant STATUS reads BUSY, ERR 0 and OUTLEN 0. -/
def Obligations.HostCannotDisturbARun : Prop :=
  ∀ (s : State) (op : HostOp), s.status = .busy → nextHostOp s = some op → op ≠ .reset →
    (∃ (p : List HostEvent) (r : List Reply) (d : Nat),
      step s = .next { s with pending := p, replies := r, draws := d }) ∧
    (Inv s → ∀ n, op = .rd n → n = 1 ∨ n = 2 ∨ n = 7 →
      step s = .next
        { takeHostOp s with replies := .reg n (if n = 1 then 1 else 0) :: s.replies })

/-- POLL reads STATUS; the host goes on when the value is not BUSY and reads again otherwise, in the
model after one block step at least (30_encoding.md R58; log entry 7). -/
def Obligations.PollReadsStatusUntilNotBusy : Prop :=
  ∀ (s : State), nextHostOp s = some .poll →
    (s.status ≠ .busy → ∃ v,
      step s = .next { takeHostOp s with replies := .reg 1 v :: s.replies } ∧ v ≠ 1) ∧
    (s.status = .busy →
      step s = .next
        { s with pending := ⟨1, .poll⟩ :: s.pending.tail, replies := .reg 1 1 :: s.replies })

/-- The host's `ENCODE bpp, order, rot` issues ENCODE with those qualifiers and then polls
(30_encoding.md R58; log entry 7). -/
def Obligations.HostEncodeIssuesTheCommand : Prop :=
  ∀ (rot : BitVec 1) (bord bpp : BitVec 2) (s : State) (rest : List HostEvent),
    s.status ≠ .busy → s.pending = encodeProgram rot bord bpp ++ rest →
    step s = exec (.encode rot bord bpp) { s with pending := ⟨0, .poll⟩ :: rest }

/-- Reset, in any state: every register reads its reset value, STATE is IDLE, and the block then does
nothing until a host operation (70_reset_and_hazards.md R112). The state after reset is such a state. In
both no memory cell has a value of its own (R113; log entry 3). That the reset leaves the host's side,
the other pending operations and the replies, is the model's choice (log entry 15). -/
def Obligations.ResetTakesTheResetValues : Prop :=
  (∀ s : State, nextHostOp s = some .reset →
    ∃ t, step s = .next t ∧ t.pending = s.pending.tail ∧ t.replies = s.replies ∧
      readReg t 0 = 0 ∧ readReg t 1 = 0 ∧ readReg t 2 = 0 ∧ readReg t 3 = 0 ∧ readReg t 4 = 0 ∧
      readReg t 5 = 128 ∧ readReg t 6 = 0x004080C0 ∧ readReg t 7 = 0 ∧ t.status = .idle ∧
      (∀ a, memRead t.src a = none) ∧ (∀ k, memRead t.out k = none) ∧
      (s.pending.tail = [] → step t = .next t)) ∧
  (State.reset.status = .idle ∧ readReg State.reset 0 = 0 ∧ readReg State.reset 1 = 0 ∧
    readReg State.reset 2 = 0 ∧ readReg State.reset 3 = 0 ∧ readReg State.reset 4 = 0 ∧
    readReg State.reset 5 = 128 ∧ readReg State.reset 6 = 0x004080C0 ∧ readReg State.reset 7 = 0 ∧
    (∀ a, memRead State.reset.src a = none) ∧ (∀ k, memRead State.reset.out k = none) ∧
    step State.reset = .next State.reset)
end

