-- ==== Sys2Proof/Laws/State.lean ====
section
/-! SUPPORT. Each field after each named update of the state. -/

namespace Sys2Proof.Machine

@[simp] theorem storeCtrl_ctrl (rot : BitVec 1) (bord bpp : BitVec 2) (s : State) :
    (storeCtrl rot bord bpp s).ctrl = ⟨rot, bord, bpp⟩ := rfl
@[simp] theorem storeCtrl_status (rot : BitVec 1) (bord bpp : BitVec 2) (s : State) :
    (storeCtrl rot bord bpp s).status = s.status := rfl
@[simp] theorem storeCtrl_err (rot : BitVec 1) (bord bpp : BitVec 2) (s : State) :
    (storeCtrl rot bord bpp s).err = s.err := rfl
@[simp] theorem storeCtrl_width (rot : BitVec 1) (bord bpp : BitVec 2) (s : State) :
    (storeCtrl rot bord bpp s).width = s.width := rfl
@[simp] theorem storeCtrl_height (rot : BitVec 1) (bord bpp : BitVec 2) (s : State) :
    (storeCtrl rot bord bpp s).height = s.height := rfl
@[simp] theorem storeCtrl_thr1 (rot : BitVec 1) (bord bpp : BitVec 2) (s : State) :
    (storeCtrl rot bord bpp s).thr1 = s.thr1 := rfl
@[simp] theorem storeCtrl_thr2 (rot : BitVec 1) (bord bpp : BitVec 2) (s : State) :
    (storeCtrl rot bord bpp s).thr2 = s.thr2 := rfl
@[simp] theorem storeCtrl_outlen (rot : BitVec 1) (bord bpp : BitVec 2) (s : State) :
    (storeCtrl rot bord bpp s).outlen = s.outlen := rfl
@[simp] theorem storeCtrl_src (rot : BitVec 1) (bord bpp : BitVec 2) (s : State) :
    (storeCtrl rot bord bpp s).src = s.src := rfl
@[simp] theorem storeCtrl_out (rot : BitVec 1) (bord bpp : BitVec 2) (s : State) :
    (storeCtrl rot bord bpp s).out = s.out := rfl
@[simp] theorem storeCtrl_latch (rot : BitVec 1) (bord bpp : BitVec 2) (s : State) :
    (storeCtrl rot bord bpp s).latch = s.latch := rfl
@[simp] theorem storeCtrl_seq (rot : BitVec 1) (bord bpp : BitVec 2) (s : State) :
    (storeCtrl rot bord bpp s).seq = s.seq := rfl
@[simp] theorem storeCtrl_chi (rot : BitVec 1) (bord bpp : BitVec 2) (s : State) :
    (storeCtrl rot bord bpp s).chi = s.chi := rfl
@[simp] theorem storeCtrl_acc (rot : BitVec 1) (bord bpp : BitVec 2) (s : State) :
    (storeCtrl rot bord bpp s).acc = s.acc := rfl
@[simp] theorem storeCtrl_optr (rot : BitVec 1) (bord bpp : BitVec 2) (s : State) :
    (storeCtrl rot bord bpp s).optr = s.optr := rfl
@[simp] theorem storeCtrl_phase (rot : BitVec 1) (bord bpp : BitVec 2) (s : State) :
    (storeCtrl rot bord bpp s).phase = s.phase := rfl
@[simp] theorem storeCtrl_pixel (rot : BitVec 1) (bord bpp : BitVec 2) (s : State) :
    (storeCtrl rot bord bpp s).pixel = s.pixel := rfl
@[simp] theorem storeCtrl_level (rot : BitVec 1) (bord bpp : BitVec 2) (s : State) :
    (storeCtrl rot bord bpp s).level = s.level := rfl
@[simp] theorem storeCtrl_draws (rot : BitVec 1) (bord bpp : BitVec 2) (s : State) :
    (storeCtrl rot bord bpp s).draws = s.draws := rfl
@[simp] theorem storeCtrl_pending (rot : BitVec 1) (bord bpp : BitVec 2) (s : State) :
    (storeCtrl rot bord bpp s).pending = s.pending := rfl
@[simp] theorem storeCtrl_replies (rot : BitVec 1) (bord bpp : BitVec 2) (s : State) :
    (storeCtrl rot bord bpp s).replies = s.replies := rfl

@[simp] theorem latchConfig_ctrl (s : State) :
    (latchConfig s).ctrl = s.ctrl := rfl
@[simp] theorem latchConfig_status (s : State) :
    (latchConfig s).status = s.status := rfl
@[simp] theorem latchConfig_err (s : State) :
    (latchConfig s).err = s.err := rfl
@[simp] theorem latchConfig_width (s : State) :
    (latchConfig s).width = s.width := rfl
@[simp] theorem latchConfig_height (s : State) :
    (latchConfig s).height = s.height := rfl
@[simp] theorem latchConfig_thr1 (s : State) :
    (latchConfig s).thr1 = s.thr1 := rfl
@[simp] theorem latchConfig_thr2 (s : State) :
    (latchConfig s).thr2 = s.thr2 := rfl
@[simp] theorem latchConfig_outlen (s : State) :
    (latchConfig s).outlen = s.outlen := rfl
@[simp] theorem latchConfig_src (s : State) :
    (latchConfig s).src = s.src := rfl
@[simp] theorem latchConfig_out (s : State) :
    (latchConfig s).out = s.out := rfl
@[simp] theorem latchConfig_latch (s : State) :
    (latchConfig s).latch = ⟨s.ctrl.bpp, s.ctrl.bord, s.ctrl.rot, s.width, s.height, s.thr1, s.thr2⟩ := rfl
@[simp] theorem latchConfig_seq (s : State) :
    (latchConfig s).seq = s.seq := rfl
@[simp] theorem latchConfig_chi (s : State) :
    (latchConfig s).chi = s.chi := rfl
@[simp] theorem latchConfig_acc (s : State) :
    (latchConfig s).acc = s.acc := rfl
@[simp] theorem latchConfig_optr (s : State) :
    (latchConfig s).optr = s.optr := rfl
@[simp] theorem latchConfig_phase (s : State) :
    (latchConfig s).phase = s.phase := rfl
@[simp] theorem latchConfig_pixel (s : State) :
    (latchConfig s).pixel = s.pixel := rfl
@[simp] theorem latchConfig_level (s : State) :
    (latchConfig s).level = s.level := rfl
@[simp] theorem latchConfig_draws (s : State) :
    (latchConfig s).draws = s.draws := rfl
@[simp] theorem latchConfig_pending (s : State) :
    (latchConfig s).pending = s.pending := rfl
@[simp] theorem latchConfig_replies (s : State) :
    (latchConfig s).replies = s.replies := rfl

@[simp] theorem raiseConfigError_ctrl (e : BitVec 3) (s : State) :
    (raiseConfigError e s).ctrl = s.ctrl := rfl
@[simp] theorem raiseConfigError_status (e : BitVec 3) (s : State) :
    (raiseConfigError e s).status = .error := rfl
@[simp] theorem raiseConfigError_err (e : BitVec 3) (s : State) :
    (raiseConfigError e s).err = e := rfl
@[simp] theorem raiseConfigError_width (e : BitVec 3) (s : State) :
    (raiseConfigError e s).width = s.width := rfl
@[simp] theorem raiseConfigError_height (e : BitVec 3) (s : State) :
    (raiseConfigError e s).height = s.height := rfl
@[simp] theorem raiseConfigError_thr1 (e : BitVec 3) (s : State) :
    (raiseConfigError e s).thr1 = s.thr1 := rfl
@[simp] theorem raiseConfigError_thr2 (e : BitVec 3) (s : State) :
    (raiseConfigError e s).thr2 = s.thr2 := rfl
@[simp] theorem raiseConfigError_outlen (e : BitVec 3) (s : State) :
    (raiseConfigError e s).outlen = 0 := rfl
@[simp] theorem raiseConfigError_src (e : BitVec 3) (s : State) :
    (raiseConfigError e s).src = s.src := rfl
@[simp] theorem raiseConfigError_out (e : BitVec 3) (s : State) :
    (raiseConfigError e s).out = s.out := rfl
@[simp] theorem raiseConfigError_latch (e : BitVec 3) (s : State) :
    (raiseConfigError e s).latch = s.latch := rfl
@[simp] theorem raiseConfigError_seq (e : BitVec 3) (s : State) :
    (raiseConfigError e s).seq = s.seq := rfl
@[simp] theorem raiseConfigError_chi (e : BitVec 3) (s : State) :
    (raiseConfigError e s).chi = s.chi := rfl
@[simp] theorem raiseConfigError_acc (e : BitVec 3) (s : State) :
    (raiseConfigError e s).acc = s.acc := rfl
@[simp] theorem raiseConfigError_optr (e : BitVec 3) (s : State) :
    (raiseConfigError e s).optr = s.optr := rfl
@[simp] theorem raiseConfigError_phase (e : BitVec 3) (s : State) :
    (raiseConfigError e s).phase = s.phase := rfl
@[simp] theorem raiseConfigError_pixel (e : BitVec 3) (s : State) :
    (raiseConfigError e s).pixel = s.pixel := rfl
@[simp] theorem raiseConfigError_level (e : BitVec 3) (s : State) :
    (raiseConfigError e s).level = s.level := rfl
@[simp] theorem raiseConfigError_draws (e : BitVec 3) (s : State) :
    (raiseConfigError e s).draws = s.draws := rfl
@[simp] theorem raiseConfigError_pending (e : BitVec 3) (s : State) :
    (raiseConfigError e s).pending = s.pending := rfl
@[simp] theorem raiseConfigError_replies (e : BitVec 3) (s : State) :
    (raiseConfigError e s).replies = s.replies := rfl

@[simp] theorem storeByte_ctrl (v : Byte) (s : State) :
    (storeByte v s).ctrl = s.ctrl := rfl
@[simp] theorem storeByte_status (v : Byte) (s : State) :
    (storeByte v s).status = s.status := rfl
@[simp] theorem storeByte_err (v : Byte) (s : State) :
    (storeByte v s).err = s.err := rfl
@[simp] theorem storeByte_width (v : Byte) (s : State) :
    (storeByte v s).width = s.width := rfl
@[simp] theorem storeByte_height (v : Byte) (s : State) :
    (storeByte v s).height = s.height := rfl
@[simp] theorem storeByte_thr1 (v : Byte) (s : State) :
    (storeByte v s).thr1 = s.thr1 := rfl
@[simp] theorem storeByte_thr2 (v : Byte) (s : State) :
    (storeByte v s).thr2 = s.thr2 := rfl
@[simp] theorem storeByte_outlen (v : Byte) (s : State) :
    (storeByte v s).outlen = s.outlen := rfl
@[simp] theorem storeByte_src (v : Byte) (s : State) :
    (storeByte v s).src = s.src := rfl
@[simp] theorem storeByte_out (v : Byte) (s : State) :
    (storeByte v s).out = memWrite s.out s.optr.toNat v := rfl
@[simp] theorem storeByte_latch (v : Byte) (s : State) :
    (storeByte v s).latch = s.latch := rfl
@[simp] theorem storeByte_seq (v : Byte) (s : State) :
    (storeByte v s).seq = s.seq := rfl
@[simp] theorem storeByte_chi (v : Byte) (s : State) :
    (storeByte v s).chi = s.chi := rfl
@[simp] theorem storeByte_acc (v : Byte) (s : State) :
    (storeByte v s).acc = s.acc := rfl
@[simp] theorem storeByte_optr (v : Byte) (s : State) :
    (storeByte v s).optr = s.optr + 1 := rfl
@[simp] theorem storeByte_phase (v : Byte) (s : State) :
    (storeByte v s).phase = s.phase := rfl
@[simp] theorem storeByte_pixel (v : Byte) (s : State) :
    (storeByte v s).pixel = s.pixel := rfl
@[simp] theorem storeByte_level (v : Byte) (s : State) :
    (storeByte v s).level = s.level := rfl
@[simp] theorem storeByte_draws (v : Byte) (s : State) :
    (storeByte v s).draws = s.draws := rfl
@[simp] theorem storeByte_pending (v : Byte) (s : State) :
    (storeByte v s).pending = s.pending := rfl
@[simp] theorem storeByte_replies (v : Byte) (s : State) :
    (storeByte v s).replies = s.replies := rfl

@[simp] theorem writeSrc_ctrl (a : SrcIndex) (v : Word) (s : State) :
    (writeSrc a v s).ctrl = s.ctrl := rfl
@[simp] theorem writeSrc_status (a : SrcIndex) (v : Word) (s : State) :
    (writeSrc a v s).status = s.status := rfl
@[simp] theorem writeSrc_err (a : SrcIndex) (v : Word) (s : State) :
    (writeSrc a v s).err = s.err := rfl
@[simp] theorem writeSrc_width (a : SrcIndex) (v : Word) (s : State) :
    (writeSrc a v s).width = s.width := rfl
@[simp] theorem writeSrc_height (a : SrcIndex) (v : Word) (s : State) :
    (writeSrc a v s).height = s.height := rfl
@[simp] theorem writeSrc_thr1 (a : SrcIndex) (v : Word) (s : State) :
    (writeSrc a v s).thr1 = s.thr1 := rfl
@[simp] theorem writeSrc_thr2 (a : SrcIndex) (v : Word) (s : State) :
    (writeSrc a v s).thr2 = s.thr2 := rfl
@[simp] theorem writeSrc_outlen (a : SrcIndex) (v : Word) (s : State) :
    (writeSrc a v s).outlen = s.outlen := rfl
@[simp] theorem writeSrc_src (a : SrcIndex) (v : Word) (s : State) :
    (writeSrc a v s).src = memWrite s.src a.toNat v := rfl
@[simp] theorem writeSrc_out (a : SrcIndex) (v : Word) (s : State) :
    (writeSrc a v s).out = s.out := rfl
@[simp] theorem writeSrc_latch (a : SrcIndex) (v : Word) (s : State) :
    (writeSrc a v s).latch = s.latch := rfl
@[simp] theorem writeSrc_seq (a : SrcIndex) (v : Word) (s : State) :
    (writeSrc a v s).seq = s.seq := rfl
@[simp] theorem writeSrc_chi (a : SrcIndex) (v : Word) (s : State) :
    (writeSrc a v s).chi = s.chi := rfl
@[simp] theorem writeSrc_acc (a : SrcIndex) (v : Word) (s : State) :
    (writeSrc a v s).acc = s.acc := rfl
@[simp] theorem writeSrc_optr (a : SrcIndex) (v : Word) (s : State) :
    (writeSrc a v s).optr = s.optr := rfl
@[simp] theorem writeSrc_phase (a : SrcIndex) (v : Word) (s : State) :
    (writeSrc a v s).phase = s.phase := rfl
@[simp] theorem writeSrc_pixel (a : SrcIndex) (v : Word) (s : State) :
    (writeSrc a v s).pixel = s.pixel := rfl
@[simp] theorem writeSrc_level (a : SrcIndex) (v : Word) (s : State) :
    (writeSrc a v s).level = s.level := rfl
@[simp] theorem writeSrc_draws (a : SrcIndex) (v : Word) (s : State) :
    (writeSrc a v s).draws = s.draws := rfl
@[simp] theorem writeSrc_pending (a : SrcIndex) (v : Word) (s : State) :
    (writeSrc a v s).pending = s.pending := rfl
@[simp] theorem writeSrc_replies (a : SrcIndex) (v : Word) (s : State) :
    (writeSrc a v s).replies = s.replies := rfl

@[simp] theorem setLevel_ctrl (v : Level) (s : State) :
    (setLevel v s).ctrl = s.ctrl := rfl
@[simp] theorem setLevel_status (v : Level) (s : State) :
    (setLevel v s).status = s.status := rfl
@[simp] theorem setLevel_err (v : Level) (s : State) :
    (setLevel v s).err = s.err := rfl
@[simp] theorem setLevel_width (v : Level) (s : State) :
    (setLevel v s).width = s.width := rfl
@[simp] theorem setLevel_height (v : Level) (s : State) :
    (setLevel v s).height = s.height := rfl
@[simp] theorem setLevel_thr1 (v : Level) (s : State) :
    (setLevel v s).thr1 = s.thr1 := rfl
@[simp] theorem setLevel_thr2 (v : Level) (s : State) :
    (setLevel v s).thr2 = s.thr2 := rfl
@[simp] theorem setLevel_outlen (v : Level) (s : State) :
    (setLevel v s).outlen = s.outlen := rfl
@[simp] theorem setLevel_src (v : Level) (s : State) :
    (setLevel v s).src = s.src := rfl
@[simp] theorem setLevel_out (v : Level) (s : State) :
    (setLevel v s).out = s.out := rfl
@[simp] theorem setLevel_latch (v : Level) (s : State) :
    (setLevel v s).latch = s.latch := rfl
@[simp] theorem setLevel_seq (v : Level) (s : State) :
    (setLevel v s).seq = s.seq := rfl
@[simp] theorem setLevel_chi (v : Level) (s : State) :
    (setLevel v s).chi = s.chi := rfl
@[simp] theorem setLevel_acc (v : Level) (s : State) :
    (setLevel v s).acc = s.acc := rfl
@[simp] theorem setLevel_optr (v : Level) (s : State) :
    (setLevel v s).optr = s.optr := rfl
@[simp] theorem setLevel_phase (v : Level) (s : State) :
    (setLevel v s).phase = .pack := rfl
@[simp] theorem setLevel_pixel (v : Level) (s : State) :
    (setLevel v s).pixel = s.pixel := rfl
@[simp] theorem setLevel_level (v : Level) (s : State) :
    (setLevel v s).level = v := rfl
@[simp] theorem setLevel_draws (v : Level) (s : State) :
    (setLevel v s).draws = s.draws := rfl
@[simp] theorem setLevel_pending (v : Level) (s : State) :
    (setLevel v s).pending = s.pending := rfl
@[simp] theorem setLevel_replies (v : Level) (s : State) :
    (setLevel v s).replies = s.replies := rfl

@[simp] theorem reply_ctrl (r : Reply) (s : State) :
    (reply r s).ctrl = s.ctrl := rfl
@[simp] theorem reply_status (r : Reply) (s : State) :
    (reply r s).status = s.status := rfl
@[simp] theorem reply_err (r : Reply) (s : State) :
    (reply r s).err = s.err := rfl
@[simp] theorem reply_width (r : Reply) (s : State) :
    (reply r s).width = s.width := rfl
@[simp] theorem reply_height (r : Reply) (s : State) :
    (reply r s).height = s.height := rfl
@[simp] theorem reply_thr1 (r : Reply) (s : State) :
    (reply r s).thr1 = s.thr1 := rfl
@[simp] theorem reply_thr2 (r : Reply) (s : State) :
    (reply r s).thr2 = s.thr2 := rfl
@[simp] theorem reply_outlen (r : Reply) (s : State) :
    (reply r s).outlen = s.outlen := rfl
@[simp] theorem reply_src (r : Reply) (s : State) :
    (reply r s).src = s.src := rfl
@[simp] theorem reply_out (r : Reply) (s : State) :
    (reply r s).out = s.out := rfl
@[simp] theorem reply_latch (r : Reply) (s : State) :
    (reply r s).latch = s.latch := rfl
@[simp] theorem reply_seq (r : Reply) (s : State) :
    (reply r s).seq = s.seq := rfl
@[simp] theorem reply_chi (r : Reply) (s : State) :
    (reply r s).chi = s.chi := rfl
@[simp] theorem reply_acc (r : Reply) (s : State) :
    (reply r s).acc = s.acc := rfl
@[simp] theorem reply_optr (r : Reply) (s : State) :
    (reply r s).optr = s.optr := rfl
@[simp] theorem reply_phase (r : Reply) (s : State) :
    (reply r s).phase = s.phase := rfl
@[simp] theorem reply_pixel (r : Reply) (s : State) :
    (reply r s).pixel = s.pixel := rfl
@[simp] theorem reply_level (r : Reply) (s : State) :
    (reply r s).level = s.level := rfl
@[simp] theorem reply_draws (r : Reply) (s : State) :
    (reply r s).draws = s.draws := rfl
@[simp] theorem reply_pending (r : Reply) (s : State) :
    (reply r s).pending = s.pending := rfl
@[simp] theorem reply_replies (r : Reply) (s : State) :
    (reply r s).replies = r :: s.replies := rfl

@[simp] theorem takeHostOp_ctrl (s : State) :
    (takeHostOp s).ctrl = s.ctrl := rfl
@[simp] theorem takeHostOp_status (s : State) :
    (takeHostOp s).status = s.status := rfl
@[simp] theorem takeHostOp_err (s : State) :
    (takeHostOp s).err = s.err := rfl
@[simp] theorem takeHostOp_width (s : State) :
    (takeHostOp s).width = s.width := rfl
@[simp] theorem takeHostOp_height (s : State) :
    (takeHostOp s).height = s.height := rfl
@[simp] theorem takeHostOp_thr1 (s : State) :
    (takeHostOp s).thr1 = s.thr1 := rfl
@[simp] theorem takeHostOp_thr2 (s : State) :
    (takeHostOp s).thr2 = s.thr2 := rfl
@[simp] theorem takeHostOp_outlen (s : State) :
    (takeHostOp s).outlen = s.outlen := rfl
@[simp] theorem takeHostOp_src (s : State) :
    (takeHostOp s).src = s.src := rfl
@[simp] theorem takeHostOp_out (s : State) :
    (takeHostOp s).out = s.out := rfl
@[simp] theorem takeHostOp_latch (s : State) :
    (takeHostOp s).latch = s.latch := rfl
@[simp] theorem takeHostOp_seq (s : State) :
    (takeHostOp s).seq = s.seq := rfl
@[simp] theorem takeHostOp_chi (s : State) :
    (takeHostOp s).chi = s.chi := rfl
@[simp] theorem takeHostOp_acc (s : State) :
    (takeHostOp s).acc = s.acc := rfl
@[simp] theorem takeHostOp_optr (s : State) :
    (takeHostOp s).optr = s.optr := rfl
@[simp] theorem takeHostOp_phase (s : State) :
    (takeHostOp s).phase = s.phase := rfl
@[simp] theorem takeHostOp_pixel (s : State) :
    (takeHostOp s).pixel = s.pixel := rfl
@[simp] theorem takeHostOp_level (s : State) :
    (takeHostOp s).level = s.level := rfl
@[simp] theorem takeHostOp_draws (s : State) :
    (takeHostOp s).draws = s.draws := rfl
@[simp] theorem takeHostOp_pending (s : State) :
    (takeHostOp s).pending = s.pending.tail := rfl
@[simp] theorem takeHostOp_replies (s : State) :
    (takeHostOp s).replies = s.replies := rfl

@[simp] theorem passBlockStep_ctrl (s : State) :
    (passBlockStep s).ctrl = s.ctrl := rfl
@[simp] theorem passBlockStep_status (s : State) :
    (passBlockStep s).status = s.status := rfl
@[simp] theorem passBlockStep_err (s : State) :
    (passBlockStep s).err = s.err := rfl
@[simp] theorem passBlockStep_width (s : State) :
    (passBlockStep s).width = s.width := rfl
@[simp] theorem passBlockStep_height (s : State) :
    (passBlockStep s).height = s.height := rfl
@[simp] theorem passBlockStep_thr1 (s : State) :
    (passBlockStep s).thr1 = s.thr1 := rfl
@[simp] theorem passBlockStep_thr2 (s : State) :
    (passBlockStep s).thr2 = s.thr2 := rfl
@[simp] theorem passBlockStep_outlen (s : State) :
    (passBlockStep s).outlen = s.outlen := rfl
@[simp] theorem passBlockStep_src (s : State) :
    (passBlockStep s).src = s.src := rfl
@[simp] theorem passBlockStep_out (s : State) :
    (passBlockStep s).out = s.out := rfl
@[simp] theorem passBlockStep_latch (s : State) :
    (passBlockStep s).latch = s.latch := rfl
@[simp] theorem passBlockStep_seq (s : State) :
    (passBlockStep s).seq = s.seq := rfl
@[simp] theorem passBlockStep_chi (s : State) :
    (passBlockStep s).chi = s.chi := rfl
@[simp] theorem passBlockStep_acc (s : State) :
    (passBlockStep s).acc = s.acc := rfl
@[simp] theorem passBlockStep_optr (s : State) :
    (passBlockStep s).optr = s.optr := rfl
@[simp] theorem passBlockStep_phase (s : State) :
    (passBlockStep s).phase = s.phase := rfl
@[simp] theorem passBlockStep_pixel (s : State) :
    (passBlockStep s).pixel = s.pixel := rfl
@[simp] theorem passBlockStep_level (s : State) :
    (passBlockStep s).level = s.level := rfl
@[simp] theorem passBlockStep_draws (s : State) :
    (passBlockStep s).draws = s.draws := rfl
@[simp] theorem passBlockStep_pending (s : State) :
    (passBlockStep s).pending = waitLess s.pending := rfl
@[simp] theorem passBlockStep_replies (s : State) :
    (passBlockStep s).replies = s.replies := rfl

@[simp] theorem postpone_ctrl (s : State) :
    (postpone s).ctrl = s.ctrl := rfl
@[simp] theorem postpone_status (s : State) :
    (postpone s).status = s.status := rfl
@[simp] theorem postpone_err (s : State) :
    (postpone s).err = s.err := rfl
@[simp] theorem postpone_width (s : State) :
    (postpone s).width = s.width := rfl
@[simp] theorem postpone_height (s : State) :
    (postpone s).height = s.height := rfl
@[simp] theorem postpone_thr1 (s : State) :
    (postpone s).thr1 = s.thr1 := rfl
@[simp] theorem postpone_thr2 (s : State) :
    (postpone s).thr2 = s.thr2 := rfl
@[simp] theorem postpone_outlen (s : State) :
    (postpone s).outlen = s.outlen := rfl
@[simp] theorem postpone_src (s : State) :
    (postpone s).src = s.src := rfl
@[simp] theorem postpone_out (s : State) :
    (postpone s).out = s.out := rfl
@[simp] theorem postpone_latch (s : State) :
    (postpone s).latch = s.latch := rfl
@[simp] theorem postpone_seq (s : State) :
    (postpone s).seq = s.seq := rfl
@[simp] theorem postpone_chi (s : State) :
    (postpone s).chi = s.chi := rfl
@[simp] theorem postpone_acc (s : State) :
    (postpone s).acc = s.acc := rfl
@[simp] theorem postpone_optr (s : State) :
    (postpone s).optr = s.optr := rfl
@[simp] theorem postpone_phase (s : State) :
    (postpone s).phase = s.phase := rfl
@[simp] theorem postpone_pixel (s : State) :
    (postpone s).pixel = s.pixel := rfl
@[simp] theorem postpone_level (s : State) :
    (postpone s).level = s.level := rfl
@[simp] theorem postpone_draws (s : State) :
    (postpone s).draws = s.draws := rfl
@[simp] theorem postpone_pending (s : State) :
    (postpone s).pending = waitMore s.pending := rfl
@[simp] theorem postpone_replies (s : State) :
    (postpone s).replies = s.replies := rfl

@[simp] theorem drawWord_ctrl (s : State) : (drawWord s).2.ctrl = s.ctrl := rfl
@[simp] theorem drawWord_status (s : State) : (drawWord s).2.status = s.status := rfl
@[simp] theorem drawWord_err (s : State) : (drawWord s).2.err = s.err := rfl
@[simp] theorem drawWord_width (s : State) : (drawWord s).2.width = s.width := rfl
@[simp] theorem drawWord_height (s : State) : (drawWord s).2.height = s.height := rfl
@[simp] theorem drawWord_thr1 (s : State) : (drawWord s).2.thr1 = s.thr1 := rfl
@[simp] theorem drawWord_thr2 (s : State) : (drawWord s).2.thr2 = s.thr2 := rfl
@[simp] theorem drawWord_outlen (s : State) : (drawWord s).2.outlen = s.outlen := rfl
@[simp] theorem drawWord_src (s : State) : (drawWord s).2.src = s.src := rfl
@[simp] theorem drawWord_out (s : State) : (drawWord s).2.out = s.out := rfl
@[simp] theorem drawWord_latch (s : State) : (drawWord s).2.latch = s.latch := rfl
@[simp] theorem drawWord_seq (s : State) : (drawWord s).2.seq = s.seq := rfl
@[simp] theorem drawWord_chi (s : State) : (drawWord s).2.chi = s.chi := rfl
@[simp] theorem drawWord_acc (s : State) : (drawWord s).2.acc = s.acc := rfl
@[simp] theorem drawWord_optr (s : State) : (drawWord s).2.optr = s.optr := rfl
@[simp] theorem drawWord_phase (s : State) : (drawWord s).2.phase = s.phase := rfl
@[simp] theorem drawWord_pixel (s : State) : (drawWord s).2.pixel = s.pixel := rfl
@[simp] theorem drawWord_level (s : State) : (drawWord s).2.level = s.level := rfl
@[simp] theorem drawWord_draws (s : State) : (drawWord s).2.draws = s.draws + 1 := rfl
@[simp] theorem drawWord_pending (s : State) : (drawWord s).2.pending = s.pending := rfl
@[simp] theorem drawWord_replies (s : State) : (drawWord s).2.replies = s.replies := rfl

@[simp] theorem drawByte_ctrl (s : State) : (drawByte s).2.ctrl = s.ctrl := rfl
@[simp] theorem drawByte_status (s : State) : (drawByte s).2.status = s.status := rfl
@[simp] theorem drawByte_err (s : State) : (drawByte s).2.err = s.err := rfl
@[simp] theorem drawByte_width (s : State) : (drawByte s).2.width = s.width := rfl
@[simp] theorem drawByte_height (s : State) : (drawByte s).2.height = s.height := rfl
@[simp] theorem drawByte_thr1 (s : State) : (drawByte s).2.thr1 = s.thr1 := rfl
@[simp] theorem drawByte_thr2 (s : State) : (drawByte s).2.thr2 = s.thr2 := rfl
@[simp] theorem drawByte_outlen (s : State) : (drawByte s).2.outlen = s.outlen := rfl
@[simp] theorem drawByte_src (s : State) : (drawByte s).2.src = s.src := rfl
@[simp] theorem drawByte_out (s : State) : (drawByte s).2.out = s.out := rfl
@[simp] theorem drawByte_latch (s : State) : (drawByte s).2.latch = s.latch := rfl
@[simp] theorem drawByte_seq (s : State) : (drawByte s).2.seq = s.seq := rfl
@[simp] theorem drawByte_chi (s : State) : (drawByte s).2.chi = s.chi := rfl
@[simp] theorem drawByte_acc (s : State) : (drawByte s).2.acc = s.acc := rfl
@[simp] theorem drawByte_optr (s : State) : (drawByte s).2.optr = s.optr := rfl
@[simp] theorem drawByte_phase (s : State) : (drawByte s).2.phase = s.phase := rfl
@[simp] theorem drawByte_pixel (s : State) : (drawByte s).2.pixel = s.pixel := rfl
@[simp] theorem drawByte_level (s : State) : (drawByte s).2.level = s.level := rfl
@[simp] theorem drawByte_draws (s : State) : (drawByte s).2.draws = s.draws + 1 := rfl
@[simp] theorem drawByte_pending (s : State) : (drawByte s).2.pending = s.pending := rfl
@[simp] theorem drawByte_replies (s : State) : (drawByte s).2.replies = s.replies := rfl

@[simp] theorem resetBlock_ctrl (s : State) : (resetBlock s).ctrl = State.reset.ctrl := rfl
@[simp] theorem resetBlock_status (s : State) : (resetBlock s).status = State.reset.status := rfl
@[simp] theorem resetBlock_err (s : State) : (resetBlock s).err = State.reset.err := rfl
@[simp] theorem resetBlock_width (s : State) : (resetBlock s).width = State.reset.width := rfl
@[simp] theorem resetBlock_height (s : State) : (resetBlock s).height = State.reset.height := rfl
@[simp] theorem resetBlock_thr1 (s : State) : (resetBlock s).thr1 = State.reset.thr1 := rfl
@[simp] theorem resetBlock_thr2 (s : State) : (resetBlock s).thr2 = State.reset.thr2 := rfl
@[simp] theorem resetBlock_outlen (s : State) : (resetBlock s).outlen = State.reset.outlen := rfl
@[simp] theorem resetBlock_src (s : State) : (resetBlock s).src = State.reset.src := rfl
@[simp] theorem resetBlock_out (s : State) : (resetBlock s).out = State.reset.out := rfl
@[simp] theorem resetBlock_latch (s : State) : (resetBlock s).latch = State.reset.latch := rfl
@[simp] theorem resetBlock_seq (s : State) : (resetBlock s).seq = State.reset.seq := rfl
@[simp] theorem resetBlock_chi (s : State) : (resetBlock s).chi = State.reset.chi := rfl
@[simp] theorem resetBlock_acc (s : State) : (resetBlock s).acc = State.reset.acc := rfl
@[simp] theorem resetBlock_optr (s : State) : (resetBlock s).optr = State.reset.optr := rfl
@[simp] theorem resetBlock_phase (s : State) : (resetBlock s).phase = State.reset.phase := rfl
@[simp] theorem resetBlock_pixel (s : State) : (resetBlock s).pixel = State.reset.pixel := rfl
@[simp] theorem resetBlock_level (s : State) : (resetBlock s).level = State.reset.level := rfl
@[simp] theorem resetBlock_draws (s : State) : (resetBlock s).draws = s.draws := rfl
@[simp] theorem resetBlock_pending (s : State) : (resetBlock s).pending = s.pending := rfl
@[simp] theorem resetBlock_replies (s : State) : (resetBlock s).replies = s.replies := rfl

end Sys2Proof.Machine
end

