-- ==== Sys2Proof/Laws/Ops.lean ====
section
/-! SUPPORT. What each shared operation does, said once. -/

namespace Sys2Proof.Machine

/-! ### Memory -/

theorem memRead_memWrite_same {n : Nat} (m : Memory n) (a : Nat) (v : BitVec n) :
    memRead (memWrite m a v) a = some v := by
  induction m with
  | nil => simp [memWrite, memRead]
  | cons c m ih =>
    obtain ⟨b, u⟩ := c
    unfold memWrite
    split
    · simp [memRead]
    · split
      · simp [memRead]
      · have : ¬ b = a := by omega
        simp [memRead, this, ih]

theorem memRead_memWrite_other {n : Nat} (m : Memory n) {a c : Nat} (v : BitVec n) (h : c ≠ a) :
    memRead (memWrite m a v) c = memRead m c := by
  induction m with
  | nil => simp [memWrite, memRead, Ne.symm h]
  | cons d m ih =>
    obtain ⟨b, u⟩ := d
    unfold memWrite
    split
    · simp [memRead, Ne.symm h]
    · split
      · subst b; simp [memRead, Ne.symm h]
      · simp only [memRead, ih]

theorem memRead_memWrite {n : Nat} (m : Memory n) (a c : Nat) (v : BitVec n) :
    memRead (memWrite m a v) c = if c = a then some v else memRead m c := by
  split
  · next h => rw [h, memRead_memWrite_same]
  · next h => exact memRead_memWrite_other m v h

/-- A cell of the memory after a write is the written one or an old one. -/
theorem mem_memWrite {n : Nat} {m : Memory n} {a : Nat} {v : BitVec n} {c : Nat × BitVec n}
    (h : c ∈ memWrite m a v) : c = (a, v) ∨ c ∈ m := by
  induction m with
  | nil => simpa [memWrite] using h
  | cons d m ih =>
    obtain ⟨b, u⟩ := d
    unfold memWrite at h
    split at h
    · simpa using h
    · split at h
      · rcases List.mem_cons.mp h with h | h
        · exact .inl h
        · exact .inr (List.mem_cons_of_mem _ h)
      · rcases List.mem_cons.mp h with h | h
        · exact .inr (h ▸ List.mem_cons_self)
        · exact (ih h).imp_right (List.mem_cons_of_mem _)

/-- The one memory operation that changes a memory keeps its canonical form. -/
theorem memWrite_wf {n size : Nat} {m : Memory n} {a : Nat} (v : BitVec n)
    (hm : Memory.wf size m) (ha : a < size) : Memory.wf size (memWrite m a v) := by
  refine ⟨?_, fun c hc => ?_⟩
  · have hs := hm.1
    clear hm
    induction m with
    | nil => simp [memWrite]
    | cons d m ih =>
      obtain ⟨b, u⟩ := d
      rw [List.pairwise_cons] at hs
      unfold memWrite
      split
      · next hab =>
        refine List.pairwise_cons.mpr ⟨fun c hc => ?_, List.pairwise_cons.mpr hs⟩
        rcases List.mem_cons.mp hc with rfl | hc
        · exact hab
        · exact Nat.lt_trans hab (hs.1 c hc)
      · split
        · next hab => subst hab; exact List.pairwise_cons.mpr hs
        · refine List.pairwise_cons.mpr ⟨fun c hc => ?_, ih hs.2⟩
          rcases mem_memWrite hc with rfl | hc
          · show b < a; omega
          · exact hs.1 c hc
  · rcases mem_memWrite hc with rfl | hc
    · exact ha
    · exact hm.2 c hc

theorem writeSrc_wf {a : SrcIndex} {v : Word} {s : State} (h : Memory.wf srcSize s.src) :
    Memory.wf srcSize (writeSrc a v s).src :=
  memWrite_wf v h a.isLt

theorem storeByte_wf {v : Byte} {s : State} (h : Memory.wf outSize s.out) :
    Memory.wf outSize (storeByte v s).out :=
  memWrite_wf v h s.optr.isLt

theorem reset_wf :
    Memory.wf srcSize State.reset.src ∧ Memory.wf outSize State.reset.out := by
  simp [Memory.wf, State.reset]

/-- A fetch returns the stored word and changes nothing, or draws a free word. -/
theorem readSrc_cases (a : SrcIndex) (s : State) :
    (∃ v, memRead s.src a.toNat = some v ∧ readSrc a s = (v, s)) ∨
    (memRead s.src a.toNat = none ∧ readSrc a s = drawWord s) := by
  unfold readSrc
  split
  · next v h => exact .inl ⟨v, h, rfl⟩
  · next h => exact .inr ⟨h, rfl⟩

/-- A host read of OUT returns the stored byte and changes nothing, or draws a free byte. -/
theorem readOut_cases (k : OutIndex) (s : State) :
    (∃ v, memRead s.out k.toNat = some v ∧ readOut k s = (v, s)) ∨
    (memRead s.out k.toNat = none ∧ readOut k s = drawByte s) := by
  unfold readOut
  split
  · next v h => exact .inl ⟨v, h, rfl⟩
  · next h => exact .inr ⟨h, rfl⟩

/-! ### Stage operations and the end of a run -/

theorem whileBusy_busy {f : State → State} {s : State} (h : s.status = .busy) :
    whileBusy f s = .next (f s) := by
  simp [whileBusy, h]

theorem whileBusy_not_busy {f : State → State} {s : State} (h : s.status ≠ .busy) :
    whileBusy f s = .next s := by
  simp [whileBusy, h]

/-- A stage operation always answers a next state: its effect while BUSY, else nothing. -/
theorem whileBusy_cases {f : State → State} {s t : State} (h : whileBusy f s = .next t) :
    (s.status = .busy ∧ t = f s) ∨ (s.status ≠ .busy ∧ t = s) := by
  simp only [whileBusy, Host.Outcome.next.injEq] at h
  split at h
  · next hb => exact .inl ⟨hb, h.symm⟩
  · next hb => exact .inr ⟨hb, h.symm⟩

/-- The fetch changes the pixel, the phase and, where the word is unwritten, the count of draws. -/
theorem fetchPixel_cases (xy : Nat × Nat) (s : State) :
    (∃ v, memRead s.src (srcAddr s.latch.w.toNat xy % srcSize) = some v ∧
      fetchPixel xy s = { s with pixel := v, phase := .quantise }) ∨
    (memRead s.src (srcAddr s.latch.w.toNat xy % srcSize) = none ∧
      fetchPixel xy s =
        { s with pixel := Config.freeWord s.draws, draws := s.draws + 1, phase := .quantise }) := by
  rcases readSrc_cases (BitVec.ofNat 20 (srcAddr s.latch.w.toNat xy)) s with ⟨v, h, e⟩ | ⟨h, e⟩
  · refine .inl ⟨v, ?_, ?_⟩
    · simpa using h
    · simp only [fetchPixel, e]
  · refine .inr ⟨?_, ?_⟩
    · simpa using h
    · simp only [fetchPixel, e, drawWord]

/-- A packed element either ends its byte, which is inverted and stored, or leaves it under
construction. -/
theorem packAt_cases (slot : Nat) (s : State) :
    (s.chi.toNat = ppb s.latch.bpp.toNat - 1 ∧
      packAt slot s = { s with
        out := memWrite s.out s.optr.toNat (invert (s.acc ||| placed s.level slot)),
        optr := s.optr + 1, acc := 0, chi := 0, seq := s.seq + 1,
        phase := s.latch.phaseAt (s.seq + 1).toNat }) ∨
    (s.chi.toNat ≠ ppb s.latch.bpp.toNat - 1 ∧
      packAt slot s = { s with
        acc := s.acc ||| placed s.level slot, chi := s.chi + 1, seq := s.seq + 1,
        phase := s.latch.phaseAt (s.seq + 1).toNat }) := by
  unfold packAt closeChunk
  split
  · next h => exact .inl ⟨h, rfl⟩
  · next h => exact .inr ⟨h, rfl⟩

/-- The end of a run stores the short last byte, if there is one, and reports DONE. -/
theorem finishRun_cases (s : State) :
    (s.chi = 0 ∧ finishRun s =
      { s with outlen := BitVec.ofNat 18 s.latch.runBytes, status := .done }) ∨
    (s.chi ≠ 0 ∧ finishRun s =
      { s with
        out := memWrite s.out s.optr.toNat (invert s.acc), optr := s.optr + 1,
        outlen := BitVec.ofNat 18 s.latch.runBytes, status := .done }) := by
  unfold finishRun flushByte
  split
  · next h => exact .inr ⟨h, rfl⟩
  · next h => exact .inl ⟨by simpa using h, rfl⟩

/-- An accepted START is refused with every cause, or the run starts. -/
theorem startRun_cases (s : State) :
    (s.latch.refusal ≠ 0 ∧ startRun s = raiseConfigError s.latch.refusal s) ∨
    (s.latch.refusal = 0 ∧ startRun s =
      { s with
        outlen := 0, err := 0, seq := 0, chi := 0, acc := 0, optr := 0, status := .busy,
        phase := s.latch.phaseAt 0 }) := by
  unfold startRun
  split
  · next h => exact .inl ⟨h, rfl⟩
  · next h => exact .inr ⟨by simpa using h, rfl⟩

end Sys2Proof.Machine
end

