-- ==== Sys2Proof/Laws/PerInstr.lean ====
section
/-! SUPPORT. Statements for all instructions, one lemma per constructor. -/

/-- The encoding of an instruction is selected by its row of the opcode map and sets no reserved bit
(30_encoding.md R48, R51). -/
def Sys2Proof.Laws.RowMatches.Statement (i : Sys2Proof.Instr) : Prop :=
  Sys2Proof.encodeRow i &&& i.mask = i.pattern ∧ Sys2Proof.encodeRow i &&& 0xFFFFFFC0 = 0

namespace Sys2Proof.Laws.RowMatches

theorem encode : ∀ (rot : BitVec 1) (bord bpp : BitVec 2), Statement (.encode rot bord bpp) := by
  unfold Statement; decide
theorem qnt1 : Statement .qnt1 := by unfold Statement; decide
theorem qnt2 : Statement .qnt2 := by unfold Statement; decide
theorem mapn : Statement .mapn := by unfold Statement; decide
theorem mapr : Statement .mapr := by unfold Statement; decide
theorem pckm : Statement .pckm := by unfold Statement; decide
theorem pckl : Statement .pckl := by unfold Statement; decide
theorem rsvBpp0 : Statement .rsvBpp0 := by unfold Statement; decide
theorem rsvBpp3 : Statement .rsvBpp3 := by unfold Statement; decide
theorem rsvBord2 : Statement .rsvBord2 := by unfold Statement; decide
theorem rsvBord3 : Statement .rsvBord3 := by unfold Statement; decide

end Sys2Proof.Laws.RowMatches
end

