-- ==== Sys2Proof/Laws/Step.lean ====
section
/-! SUPPORT. What a step can be, said once. -/

namespace Sys2Proof.Machine

/-- Every instruction answers a next state. -/
theorem exec_next (i : Instr) (s : State) : ∃ t, exec i s = .next t := by
  cases i <;> exact ⟨_, rfl⟩

/-- A step is one of five things: an instruction the host issues, another host operation, a stage of
the run, the end of the run, or nothing. -/
theorem step_cases (s : State) :
    (∃ op i, nextHostOp s = some op ∧ issuedBy op = some i ∧ step s = exec i (takeHostOp s)) ∨
    (∃ op, nextHostOp s = some op ∧ issuedBy op = none ∧
      step s = .next (landHostOp op (takeHostOp s))) ∨
    (∃ i, nextHostOp s = none ∧ s.status = .busy ∧ stageOp s = some i ∧
      step s = exec i (passBlockStep s)) ∨
    (nextHostOp s = none ∧ s.status = .busy ∧ s.phase = .finish ∧
      step s = .next (finishRun (passBlockStep s))) ∨
    (nextHostOp s = none ∧ s.status ≠ .busy ∧ step s = .next s) := by
  unfold step
  cases ho : nextHostOp s with
  | some op =>
    cases hi : issuedBy op with
    | some i => exact .inl ⟨op, i, rfl, hi, by simp [hi]⟩
    | none => exact .inr (.inl ⟨op, rfl, hi, by simp [hi]⟩)
  | none =>
    by_cases hb : s.status = .busy
    · cases hs : stageOp s with
      | some i => exact .inr (.inr (.inl ⟨i, rfl, hb, rfl, by simp [hb]⟩))
      | none =>
        refine .inr (.inr (.inr (.inl ⟨rfl, hb, ?_, by simp [hb]⟩)))
        cases hp : s.phase <;> simp [stageOp, hp] at hs ⊢
    · exact .inr (.inr (.inr (.inr ⟨rfl, hb, by simp [hb]⟩)))

/-- The instruction a host operation issues is ENCODE, by a write of CTRL with START set. -/
theorem issuedBy_some {op : HostOp} {i : Instr} (h : issuedBy op = some i) :
    ∃ v, op = .wr 0 v ∧ cwStart v = true ∧ i = .encode (cwRot v) (cwBord v) (cwBpp v) := by
  unfold issuedBy at h
  split at h
  · next v =>
    unfold commandOf at h
    split at h
    · next hv => exact ⟨v, rfl, hv, by simpa [rowOf] using h.symm⟩
    · cases h
  · cases h

/-- What the oldest pending operation is when one lands. -/
theorem nextHostOp_some {s : State} {op : HostOp} (h : nextHostOp s = some op) :
    ∃ e rest, s.pending = e :: rest ∧ e.op = op ∧ (s.status = .busy → e.wait = 0) := by
  unfold nextHostOp at h
  split at h
  · cases h
  · next e rest hp =>
    split at h
    · cases h
    · next hb =>
      refine ⟨e, rest, hp, by simpa using h, fun hs => ?_⟩
      by_contra hw
      exact hb ⟨hs, hw⟩

end Sys2Proof.Machine
end

