-- ==== Sys2Proof/Laws/Run.lean ====
section
/-! SUPPORT. Runs of several steps, and what a latched configuration without causes selects. -/

namespace Sys2Proof.Machine

/-! ### Runs -/

theorem core_run_succ {s t : State} (n : Nat) (h : step s = .next t) :
    Host.Core.run core (n + 1) s = Host.Core.run core n t := by
  simp only [Host.Core.run]
  rw [show core.step s = .next t from h]

theorem core_run_one {s t : State} (h : step s = .next t) : Host.Core.run core 1 s = .next t :=
  core_run_succ 0 h

theorem core_run_add (m n : Nat) :
    ∀ {s t : State}, Host.Core.run core m s = .next t →
      Host.Core.run core (m + n) s = Host.Core.run core n t := by
  induction m with
  | zero => intro s t h; cases h; simp
  | succ m ih =>
    intro s t h
    obtain ⟨u, hu⟩ : ∃ u, step s = .next u := by
      rcases step_cases s with ⟨_, i, _, _, e⟩ | ⟨_, _, _, e⟩ | ⟨i, _, _, _, e⟩ | ⟨_, _, _, e⟩
        | ⟨_, _, e⟩
      · obtain ⟨u, hu⟩ := exec_next i (takeHostOp s); exact ⟨u, e.trans hu⟩
      · exact ⟨_, e⟩
      · obtain ⟨u, hu⟩ := exec_next i (passBlockStep s); exact ⟨u, e.trans hu⟩
      · exact ⟨_, e⟩
      · exact ⟨_, e⟩
    rw [core_run_succ m hu] at h
    rw [Nat.succ_add, core_run_succ _ hu]
    exact ih h

/-! ### What lands -/

/-- The oldest pending operation lands when the block is not BUSY or no block step is left before
it. -/
theorem nextHostOp_lands {s : State} {wait : Nat} {op : HostOp} {rest : List HostEvent}
    (hp : s.pending = ⟨wait, op⟩ :: rest) (hw : s.status = .busy → wait = 0) :
    nextHostOp s = some op := by
  simp only [nextHostOp, hp]
  rw [if_neg]
  rintro ⟨hb, hne⟩
  exact hne (hw hb)

/-- No operation lands during a run while the oldest pending one has block steps to wait. -/
theorem nextHostOp_waits {s : State} (hb : s.status = .busy)
    (hp : ∀ e rest, s.pending = e :: rest → e.wait ≠ 0) : nextHostOp s = none := by
  unfold nextHostOp
  split
  · rfl
  · next e rest h => rw [if_pos ⟨hb, hp e rest h⟩]

theorem takeHostOp_eq {s : State} {e : HostEvent} {rest : List HostEvent}
    (hp : s.pending = e :: rest) : takeHostOp s = { s with pending := rest } := by
  simp [takeHostOp, hp]

/-- A host operation that issues no instruction has its own effect. -/
theorem step_hostOp {s : State} {wait : Nat} {op : HostOp} {rest : List HostEvent}
    (hp : s.pending = ⟨wait, op⟩ :: rest) (hw : s.status = .busy → wait = 0)
    (hi : issuedBy op = none) :
    step s = .next (landHostOp op { s with pending := rest }) := by
  simp only [step, nextHostOp_lands hp hw, hi, takeHostOp_eq hp]

/-- A stage of the run is issued when no host operation lands. -/
theorem step_stage {s : State} {i : Instr} (hn : nextHostOp s = none) (hb : s.status = .busy)
    (hi : stageOp s = some i) : step s = exec i (passBlockStep s) := by
  simp [step, hn, hb, hi]

theorem passBlockStep_idle {s : State} (hp : s.pending = []) : passBlockStep s = s := by
  cases s
  simp at hp
  subst hp
  rfl

/-! ### A configuration without causes -/

/-- Without causes the latched BPP and BORD are recognised. -/
theorem refusal_zero {l : Latch} (h : l.refusal = 0) :
    (l.bpp = 1 ∨ l.bpp = 2) ∧ (l.bord = 0 ∨ l.bord = 1) := by
  have key : ∀ (a b : BitVec 2) (g : Bool),
      ((if a = 0 ∨ a = 3 then eBpp else 0) ||| (if b = 2 ∨ b = 3 then eBord else 0)
        ||| (if g then eGeom else 0)) = 0 → (a = 1 ∨ a = 2) ∧ (b = 0 ∨ b = 1) := by decide
  exact key l.bpp l.bord (!supportedGeometry l.w l.h && Config.geomCheck) h

/-- A recognised BPP and BORD with a supported geometry have no causes, whatever GEOM_CHECK is. -/
theorem refusal_of_supported {l : Latch} (hb : l.bpp = 1 ∨ l.bpp = 2) (ho : l.bord = 0 ∨ l.bord = 1)
    (hg : supportedGeometry l.w l.h = true) : l.refusal = 0 := by
  simp only [Latch.refusal, Latch.causes, hg]
  rcases hb with hb | hb <;> rcases ho with ho | ho <;> simp [hb, ho]

theorem ppb_of_bpp {bpp : BitVec 2} (h : bpp = 1 ∨ bpp = 2) :
    ppb bpp.toNat = 8 ∨ ppb bpp.toNat = 4 := by
  rcases h with rfl | rfl <;> decide

/-- The scan of a non-rotated run reads SRC in address order (41_mapper.md R73). -/
theorem scanAddr_nonRotated {l : Latch} (h : l.rot = 0) (n : Nat) : scanAddr l n = n := by
  simp only [scanAddr, h, if_true, coordN, srcAddr]
  exact Nat.div_add_mod' n l.w.toNat

end Sys2Proof.Machine
end

