-- ==== Sys2Proof/Tests/Slice0.lean ====
section
/-! SUPPORT. Tests on values of the spec (95_test_vectors.md and the rules named), and for each
statement with hypotheses a witness that meets them. -/

namespace Sys2Proof.Tests

open Sys2Proof Sys2Proof.Machine

/-! ### Well-formedness -/

/-- A quantiser slot must hold a quantiser row. -/
theorem test_wf_quantiser : ControlWord.wf ⟨true, .mapn, .mapn, .pckm⟩ = false := by decide

/-- A mapper slot must hold a mapper row. -/
theorem test_wf_mapper : ControlWord.wf ⟨true, .qnt1, .pckm, .pckm⟩ = false := by decide

/-- A packer slot must hold a packer row; ENCODE is no slot's row. -/
theorem test_wf_packer :
    ControlWord.wf ⟨true, .qnt1, .mapn, .encode 0 0 1⟩ = false := by decide

theorem test_wf_good : ControlWord.wf ⟨true, .qnt2, .mapr, .rsvBord3⟩ = true := by decide

/-! ### Decoding: words from 30_encoding.md R48, R51 -/

theorem test_decode_encode :
    decodeSlot .command 0x00000027 = some (.encode 1 1 2) ∧ decodeSlot .command 0x00000026 = none := by
  decide
theorem test_decode_qnt1 : decodeSlot .quantiser 0x00000010 = some .qnt1 := by decide
theorem test_decode_qnt2 : decodeSlot .quantiser 0x00000020 = some .qnt2 := by decide
theorem test_decode_mapn : decodeSlot .mapper 0x00000000 = some .mapn := by decide
theorem test_decode_mapr : decodeSlot .mapper 0x00000002 = some .mapr := by decide
theorem test_decode_pckm : decodeSlot .packer 0x00000000 = some .pckm := by decide
theorem test_decode_pckl : decodeSlot .packer 0x00000004 = some .pckl := by decide
theorem test_decode_rsvBpp0 : decodeSlot .quantiser 0x00000000 = some .rsvBpp0 := by decide
theorem test_decode_rsvBpp3 : decodeSlot .quantiser 0x00000030 = some .rsvBpp3 := by decide
theorem test_decode_rsvBord2 : decodeSlot .packer 0x00000008 = some .rsvBord2 := by decide
theorem test_decode_rsvBord3 : decodeSlot .packer 0x0000000C = some .rsvBord3 := by decide

/-- 30_encoding.md R51, the eight legal ENCODE words. -/
theorem test_decode_legal_words :
    [0x11, 0x13, 0x15, 0x17, 0x21, 0x23, 0x25, 0x27].map decodeControl =
      [⟨true, .qnt1, .mapn, .pckm⟩, ⟨true, .qnt1, .mapr, .pckm⟩, ⟨true, .qnt1, .mapn, .pckl⟩,
       ⟨true, .qnt1, .mapr, .pckl⟩, ⟨true, .qnt2, .mapn, .pckm⟩, ⟨true, .qnt2, .mapr, .pckm⟩,
       ⟨true, .qnt2, .mapn, .pckl⟩, ⟨true, .qnt2, .mapr, .pckl⟩] := by
  decide

/-- 30_encoding.md R54. -/
theorem test_decode_reserved_bits :
    decodeControl 0xFFFFFFD1 = ⟨true, .qnt1, .mapn, .pckm⟩ := by decide

/-- No two rows of one slot overlap (30_encoding.md R51). -/
theorem test_rows_disjoint :
    List.Pairwise (fun i j : Instr => i.slot = j.slot →
        i.pattern &&& (i.mask &&& j.mask) ≠ j.pattern &&& (i.mask &&& j.mask))
      [.qnt1, .qnt2, .mapn, .mapr, .pckm, .pckl, .rsvBpp0, .rsvBpp3, .rsvBord2, .rsvBord3] := by
  decide

/-- 30_encoding.md R58: the word `ENCODE 2, LSB, ROT` writes. -/
theorem test_encode_word : encodeRow (.encode 1 1 2) = 0x00000027 := by decide

/-- A word of the opcode table is issued next: the command by the host, a slot row by a run. -/
theorem test_fetch_rows :
    (step (State.reset.withFetchWord 8 0x00000001)
        = exec (.encode 0 0 0) State.reset) ∧
    (step (State.reset.withFetchWord 8 0x00000020)
        = exec .qnt2 { State.reset with
            status := .busy, phase := .quantise, latch := { Latch.atReset with bpp := 2 } }) ∧
    (step (State.reset.withFetchWord 8 0x0000000C)
        = exec .rsvBord3 { State.reset with
            status := .busy, phase := .pack, latch := { Latch.atReset with bord := 3 } }) ∧
    (step (State.reset.withFetchWord 8 0x00000002)
        = exec .mapr { State.reset with
            status := .busy, phase := .map, latch := { Latch.atReset with rot := 1 } }) :=
  ⟨rfl, rfl, rfl, rfl⟩

/-! ### States the tests start from -/

/-- A run of a 3x2 grid with the SRC words of program P2 (95_test_vectors.md) and the thresholds
230, 200, 140. -/
def gridRun (bpp : BitVec 2) (rot : BitVec 1) (bord : BitVec 2) : State :=
  { State.reset with
    status := .busy
    src := [(0, 0xFF0000E7), (1, 0x0000D200), (2, 0x07960000), (3, 0xFF646464), (4, 0x00FFFFFF),
      (5, 0xFF000000)]
    latch :=
      { bpp := bpp, bord := bord, rot := rot, w := 3, h := 2, t := 128, thr2 := ⟨230, 200, 140⟩ } }

/-- The reset state with a grid size (10_state.md R14, R15). -/
def sized (w h : BitVec 10) : State := { State.reset with width := w, height := h }

/-- The reset state with one host operation waiting. -/
def hosted (op : HostOp) : State := { State.reset with pending := [⟨0, op⟩] }

/-- A run that has just been started on an 800x480 grid at 1 bpp. -/
def freshRun : State :=
  { State.reset with
    status := .busy
    latch := { bpp := 1, bord := 0, rot := 0, w := 800, h := 480, t := 128, thr2 := ⟨192, 128, 64⟩ } }

/-- The state of an outcome that is a next state. -/
def after (o : Host.Outcome State Fault Refusal) : State :=
  match o with
  | .next s => s
  | _ => State.reset

/-- The value the last read returned. -/
def lastValue (s : State) : Option Word :=
  match s.replies with
  | .reg _ v :: _ => some v
  | .src _ v :: _ => some v
  | _ => none

/-! ### Quantiser: 95_test_vectors.md 2.1 and 2.2 -/

/-- The rows of table 2.1. -/
theorem test_qnt1_table :
    [qnt1 128 128 128 128, qnt1 129 0 0 128, qnt1 0 129 0 128, qnt1 0 0 129 128, qnt1 0 0 0 128,
      qnt1 255 255 255 128, qnt1 231 0 0 128, qnt1 100 100 100 128, qnt1 255 255 255 255,
      qnt1 0 0 0 0, qnt1 1 0 0 0] = [1, 0, 0, 0, 1, 0, 0, 1, 1, 1, 0] := by decide

/-- Equality is not above, alpha is ignored: `PIX 128,128,128,255` at threshold 128. -/
theorem test_exec_qnt1 :
    after (exec .qnt1 { freshRun with pixel := 0xFF808080 })
      = { freshRun with pixel := 0xFF808080, level := 1, phase := .pack } := by decide

/-- The rows of table 2.2, thresholds 230, 200, 140. -/
theorem test_qnt2_table :
    [(231, 0, 0), (0, 231, 0), (0, 0, 255), (230, 230, 230), (201, 0, 0), (200, 200, 200),
      (141, 0, 0), (140, 140, 140), (100, 100, 100), (0, 0, 0)].map
      (fun c : Byte × Byte × Byte => qnt2 c.1 c.2.1 c.2.2 230 200 140)
      = [0, 0, 0, 1, 1, 2, 2, 3, 3, 3] := by decide

/-- Thresholds out of order (40_quantizer.md R67). -/
theorem test_exec_qnt2 :
    let s : State :=
      { freshRun with latch := { freshRun.latch with bpp := 2, thr2 := ⟨100, 200, 50⟩ } }
    (after (exec .qnt2 { s with pixel := 0x00000096 })).level = 0 ∧
    (after (exec .qnt2 { s with pixel := 0x00003C00 })).level = 2 ∧
    (after (exec .qnt2 { s with pixel := 0xFF323232 })).level = 3 := by decide

/-! ### Mapper: 95_test_vectors.md 2.3 and program P2 -/

/-- The SRC addresses of the scans of a 3x2 and a 5x3 grid. -/
theorem test_scan_addresses :
    (List.range (seqLen 0 3 2 false)).map (fun n => srcAddr 3 (coordN n 3)) = [0, 1, 2, 3, 4, 5] ∧
    (List.range (seqLen 1 3 2 true)).map (fun n => srcAddr 3 (coordR n 3 2)) = [2, 5, 1, 4] ∧
    (List.range (seqLen 0 3 2 true)).map (fun n => srcAddr 3 (coordR n 3 2)) = [2, 5, 1, 4, 0, 3] ∧
    (List.range (seqLen 1 5 3 true)).map (fun n => srcAddr 5 (coordR n 5 3))
      = [4, 9, 14, 3, 8, 13, 2, 7, 12, 1, 6, 11] ∧
    seqLen 1 1 4 true = 0 ∧ seqLen 1 0 7 true = 0 ∧ seqLen 0 7 0 true = 0 := by decide

/-- Single indices at the supported geometries. -/
theorem test_scan_large :
    coordR 479 800 480 = (799, 479) ∧ coordR 480 800 480 = (798, 0) ∧
    coordR 383519 800 480 = (1, 479) ∧ srcAddr 480 (coordR 383199 480 800) = 383521 ∧
    coordN 800 800 = (0, 1) ∧ coordN 383999 800 = (799, 479) := by decide

/-- MAPN at element 2 of program P2 loads word 2. -/
theorem test_exec_mapn :
    after (exec .mapn { gridRun 2 0 0 with seq := 2 })
      = { gridRun 2 0 0 with seq := 2, pixel := 0x07960000, phase := .quantise } := by decide

/-- MAPR at elements 0 and 3 of program P2 loads words 2 and 4. -/
theorem test_exec_mapr :
    (after (exec .mapr (gridRun 2 1 0))).pixel = 0x07960000 ∧
    (after (exec .mapr { gridRun 2 1 0 with seq := 3 })).pixel = 0x00FFFFFF := by decide

/-! ### Packer: 95_test_vectors.md 2.4 -/

/-- The levels of a list, 0 past its end. -/
def levels (l : List Level) (i : Nat) : Level := l.getD i 0

theorem test_pack_1bpp :
    packM 1 (levels [1]) = 0x7F ∧ packL 1 (levels [1]) = 0xFE ∧
    packM 1 (levels [1, 0, 1, 1, 0, 0, 1, 0]) = 0x4D ∧
    packL 1 (levels [1, 0, 1, 1, 0, 0, 1, 0]) = 0xB2 ∧
    packM 1 (levels [1, 1, 1]) = 0x1F ∧ packL 1 (levels [1, 1, 1]) = 0xF8 ∧
    packM 1 (levels []) = 0xFF := by decide

theorem test_pack_2bpp :
    packM 2 (levels [0, 1, 2, 3]) = 0xE4 ∧ packL 2 (levels [0, 1, 2, 3]) = 0x1B ∧
    packM 2 (levels [1, 2, 3, 0]) = 0x93 ∧ packL 2 (levels [1, 2, 3, 0]) = 0xC6 ∧
    packM 2 (levels [2]) = 0x7F ∧ packL 2 (levels [2]) = 0xFD ∧
    packM 2 (levels [0, 3]) = 0xCF ∧ packL 2 (levels [0, 3]) = 0xF3 := by decide

/-- `OutLen` (42_packer.md R80). -/
theorem test_outLen :
    [outLen 0 1, outLen 1 1, outLen 1 2, outLen 8 1, outLen 8 2, outLen 9 1, outLen 9 2,
      outLen 384000 1, outLen 384000 2, outLen 383520 1, outLen 383200 2, outLen 1046529 2]
      = [0, 1, 1, 1, 2, 2, 3, 48000, 96000, 47940, 95800, 261633] := by decide

/-- PCKM: the last element of chunk 0 of program P2, levels 0, 1, 2, 3, stores `0xE4`. -/
theorem test_exec_pckm :
    let t := after (exec .pckm { gridRun 2 0 0 with acc := 0x18, chi := 3, seq := 3, level := 3 })
    t.out = [(0, 0xE4)] ∧ t.optr = 1 ∧ t.chi = 0 ∧ t.acc = 0 ∧ t.seq = 4 := by decide

/-- PCKL: the second element of chunk 1 of program P2, level 3, goes to bits 3:2. -/
theorem test_exec_pckl :
    let t := after (exec .pckl { gridRun 2 0 1 with chi := 1, seq := 5, level := 3, optr := 1 })
    t.out = [] ∧ t.optr = 1 ∧ t.chi = 2 ∧ t.acc = 0x0C ∧ t.seq = 6 := by decide

/-- The flush of the short chunk of program P2: `0xCF` under PCKM, `0xF3` under PCKL. -/
theorem test_flush :
    (flushByte { gridRun 2 0 0 with acc := 0x30, chi := 2, optr := 1 }).out = [(1, 0xCF)] ∧
    (flushByte { gridRun 2 0 1 with acc := 0x0C, chi := 2, optr := 1 }).out = [(1, 0xF3)] := by
  decide

/-- `EncodeCore` of program P2 (both values of ROT_LAST_X) and of program P3's first row. -/
theorem test_encodeCore :
    let src := fun a => (memRead (gridRun 2 0 0).src a).getD 0
    encodeCore 0 (gridRun 2 0 0).latch src = [0xE4, 0xCF] ∧
    encodeCore 0 (gridRun 2 1 1).latch src = [0xE1, 0xF3] ∧
    encodeCore 1 (gridRun 2 1 0).latch src = [0x4B] ∧
    encodeCore 1 (gridRun 1 1 1).latch src = [0xFD] ∧
    encodeCore 0 (gridRun 1 0 0).latch src = [0xEB] := by decide

/-! ### ENCODE and errors: 95_test_vectors.md 2.5 -/

/-- The causes of the table of START outcomes, with GEOM_CHECK true and false. -/
theorem test_causes :
    (latchOf 0 0 0 (sized 0 0)).causes true = 0b101 ∧ (latchOf 0 0 1 (sized 0 0)).causes true = 0b100 ∧
    (latchOf 0 0 3 (sized 800 480)).causes true = 0b001 ∧
    (latchOf 0 2 1 (sized 800 480)).causes true = 0b010 ∧
    (latchOf 0 3 1 (sized 800 480)).causes true = 0b010 ∧
    (latchOf 0 0 1 (sized 800 800)).causes true = 0b100 ∧
    (latchOf 0 0 2 (sized 480 480)).causes true = 0b100 ∧
    (latchOf 1 3 3 (sized 8 1)).causes true = 0b111 ∧
    (latchOf 1 3 3 (sized 8 1)).causes false = 0b011 ∧
    (latchOf 1 1 2 (sized 480 800)).causes true = 0 := by decide

/-- A START while BUSY is ignored whole. -/
theorem test_exec_encode_busy : after (exec (.encode 1 1 2) freshRun) = freshRun := by decide

/-- A refused START stores the fields and enters the error; 800x480 with BORD 2. -/
theorem test_exec_encode_refused :
    let t := after (exec (.encode 0 2 1) { sized 800 480 with out := [(0, 0xAA)] })
    t.status = .error ∧ t.err.getLsbD 1 = true ∧ t.outlen = 0 ∧ readReg t 0 = 0x00000018 ∧
      t.out = [(0, 0xAA)] := by
  have h : exec (.encode 0 2 1) { sized 800 480 with out := [(0, 0xAA)] }
      = .next (raiseConfigError (0b010 ||| (if Config.geomCheck = true then 0 else 0))
          (latchConfig (storeCtrl 0 2 1 { sized 800 480 with out := [(0, 0xAA)] }))) := by
    simp [exec, execEncode, startRun, latchConfig, storeCtrl, sized, Latch.refusal, Latch.causes,
      supportedGeometry, State.reset, eBord]
  simp only [h, after, ite_self]
  decide

/-- The reserved rows set their own cause bit. -/
theorem test_exec_reserved :
    (after (exec .rsvBpp0 State.reset)).err.getLsbD 0 = true ∧
    (after (exec .rsvBpp3 State.reset)).err.getLsbD 0 = true ∧
    (after (exec .rsvBord2 State.reset)).err.getLsbD 1 = true ∧
    (after (exec .rsvBord3 State.reset)).err.getLsbD 1 = true := by
  simp [after, exec, execRsvBpp0, execRsvBpp3, execRsvBord2, execRsvBord3, refuseSelection,
    raiseConfigError, eBpp, eBord]

/-! ### Registers: 95_test_vectors.md 2.5 -/

/-- The values of the table of register accesses, each from the reset state. -/
theorem test_register_access :
    readReg (writeReg 3 0x00000400 State.reset) 3 = 0 ∧
    readReg (writeReg 3 0xFFFFFFFF State.reset) 3 = 0x000003FF ∧
    readReg (writeReg 5 0x00000180 State.reset) 5 = 0x00000080 ∧
    readReg (writeReg 6 0xFFFFFFFF State.reset) 6 = 0x00FFFFFF ∧
    readReg (writeReg 0 0xFFFFFFFE State.reset) 0 = 0x0000003E ∧
    readReg (writeReg 1 3 State.reset) 1 = 0 ∧
    readReg (writeReg 7 5 State.reset) 7 = 0 ∧
    readReg State.reset 9 = 0 ∧ readReg State.reset 6 = 0x004080C0 ∧
    readReg State.reset 5 = 0x00000080 := by decide

/-- The worked value of 10_state.md R17. -/
theorem test_thr2_fields :
    (writeReg 6 0x008CC8E6 State.reset).thr2 = ⟨230, 200, 140⟩ := by decide

/-- A host read of a register and of a SRC word through `step`. -/
theorem test_host_reads :
    lastValue (after (step (hosted (.rd 6)))) = some 0x004080C0 ∧
    lastValue (after (step { hosted (.lw 5) with src := (gridRun 1 0 0).src })) = some 0xFF000000 := by
  decide

/-- `PIX` (30_encoding.md R58), the words of program P2. -/
theorem test_pix :
    pix 231 0 0 255 = 0xFF0000E7 ∧ pix 0 0 150 7 = 0x07960000 ∧ pix 128 128 128 0 = 0x00808080 := by
  decide

/-! ### Witnesses: states and operands that meet the hypotheses of each statement -/

theorem test_witness_rows_by_mask :
    Instr.qnt1.slot ≠ .command ∧ (0x00000010 : Word) &&& 0x00000001 = 0 ∧
    (0xFFFFFFFF : Word) &&& 0x00000001 = 0x00000001 := by decide

theorem test_witness_wf_control : ControlWord.wf ⟨false, .rsvBpp0, .mapn, .rsvBord2⟩ = true := by decide

/-- A START that lands outside a run and one that lands during a run. -/
theorem test_witness_step_issue :
    (hosted (.wr 0 0x00000011)).pending = ⟨0, .wr 0 0x00000011⟩ :: [] ∧
    nextHostOp (hosted (.wr 0 0x00000011)) = some (.wr 0 0x00000011) ∧
    nextHostOp { freshRun with pending := [⟨0, .wr 0 0x00000027⟩] } = some (.wr 0 0x00000027) ∧
    (0x00000011 : Word).getLsbD 0 = true ∧ (0x00000027 : Word).getLsbD 0 = true := by
  decide

/-- Runs with no host operation landing, at each stage with each selection, and an idle block. -/
theorem test_witness_step_stages :
    freshRun.status = .busy ∧ freshRun.pending = [] ∧ freshRun.phase = .map ∧
    (∀ b : BitVec 2, { gridRun b 0 0 with phase := .quantise }.latch.bpp = b) ∧
    (∀ b : BitVec 2, { gridRun 1 0 b with phase := .pack }.latch.bord = b) ∧
    { freshRun with phase := .finish }.phase = .finish ∧
    State.reset.pending = [] ∧ State.reset.status ≠ .busy := by decide

/-- A run whose oldest pending operation has block steps to wait. -/
theorem test_witness_step_waiting :
    ∃ s : State, s.status = .busy ∧ s.pending = [⟨1, .poll⟩] ∧
      ∀ e rest, s.pending = e :: rest → e.wait ≠ 0 :=
  ⟨{ freshRun with pending := [⟨1, .poll⟩] }, rfl, rfl, fun e rest h => by cases h; decide⟩

/-- For ENCODE: BUSY; a START that is refused; one that is accepted on every instance. -/
theorem test_witness_encode :
    freshRun.status = .busy ∧ (sized 800 480).status ≠ .busy ∧
    (latchOf 0 0 3 (sized 800 480)).refusal ≠ 0 ∧ (latchOf 1 1 2 (sized 480 800)).refusal = 0 := by
  refine ⟨rfl, by decide, fun h => ?_, refusal_of_supported (by decide) (by decide) (by decide)⟩
  exact absurd (refusal_zero h).1 (by decide)

theorem test_witness_encode_starts :
    (sized 480 800).status ≠ .busy ∧ ((2 : BitVec 2) = 1 ∨ (2 : BitVec 2) = 2) ∧
    ((1 : BitVec 2) = 0 ∨ (1 : BitVec 2) = 1) ∧
    ((sized 480 800).width = 480 ∧ (sized 480 800).height = 800) := by decide

/-- Runs with a fetched pixel, for the quantiser and the packer, at both ends of a chunk. -/
theorem test_witness_stage_busy :
    (gridRun 1 0 0).status = .busy ∧ (gridRun 2 1 1).status = .busy ∧
    (gridRun 2 0 0).chi.toNat ≠ 8 / (gridRun 2 0 0).latch.bpp.toNat - 1 ∧
    ({ gridRun 2 0 0 with chi := 3 }).chi.toNat = 8 / (gridRun 2 0 0).latch.bpp.toNat - 1 ∧
    ({ gridRun 1 0 1 with chi := 7 }).chi.toNat = 8 / (gridRun 1 0 1).latch.bpp.toNat - 1 := by decide

theorem test_witness_alpha :
    (0xFF0000E7 : Word) &&& 0x00FFFFFF = (0x000000E7 : Word) &&& 0x00FFFFFF ∧
    (0xFF0000E7 : Word) ≠ 0x000000E7 := by decide

theorem test_witness_monotone :
    (0 : Byte) ≤ 255 ∧ (128 : Byte) ≤ 128 ∧ (128 : Byte) ≤ 129 := by decide

/-- Written words under MAPN and MAPR, at the last element of the scan. -/
theorem test_witness_fetch :
    (let s := { gridRun 1 0 0 with seq := 5 }
     memRead s.src (s.seq.toNat / s.latch.w.toNat * s.latch.w.toNat + s.seq.toNat % s.latch.w.toNat)
       = some 0xFF000000) ∧
    (let s := { gridRun 1 1 0 with seq := 5 }
     memRead s.src
       ((s.seq.toNat % s.latch.h.toNat * s.latch.w.toNat
         + (s.latch.w.toNat - 1 - s.seq.toNat / s.latch.h.toNat)) % 1048576) = some 0xFF646464) := by
  decide

/-- Unwritten words under MAPN and MAPR. -/
theorem test_witness_fetch_unwritten :
    let s := { gridRun 1 0 0 with src := [] }
    memRead s.src (s.seq.toNat / s.latch.w.toNat * s.latch.w.toNat + s.seq.toNat % s.latch.w.toNat)
      = none ∧
    memRead s.src
      ((s.seq.toNat % s.latch.h.toNat * s.latch.w.toNat
        + (s.latch.w.toNat - 1 - s.seq.toNat / s.latch.h.toNat)) % 1048576) = none := by decide

/-- Elements of both scans, the first and the last, and coordinates inside the grid. -/
theorem test_witness_scan :
    5 < seqLen 1 3 2 false ∧ 0 < seqLen 1 3 2 false ∧ coordN 5 3 = (2, 1) ∧
    3 < seqLen 1 3 2 true ∧ 0 < seqLen 1 3 2 true ∧ coordR 3 3 2 = (1, 1) ∧
    (1 ≤ 1 ∧ 1 < 3 ∧ 1 < 2) := by decide

/-- A latched configuration at the largest sizes, both modes and both widths. -/
theorem test_witness_addresses :
    let l : Latch := ⟨2, 0, 0, 1023, 1023, 0, ⟨0, 0, 0⟩⟩
    1046528 < l.seqLen 0 ∧ l.rot = 0 ∧ (l.bpp = 1 ∨ l.bpp = 2) ∧
      1045505 < ({ l with rot := 1 } : Latch).seqLen 1 := by decide

/-- Levels of both widths, full chunks and short ones at both ends of their length. -/
theorem test_witness_levels :
    (∀ i, (levels [] i).toNat < 2 ^ 1) ∧ (∀ i, (levels [3, 3, 3, 3] i).toNat < 2 ^ 2) ∧
    ((1 = 1 ∨ 1 = 2) ∧ (2 = 1 ∨ 2 = 2)) ∧ 7 < 8 / 1 ∧ 0 < 8 / 2 ∧ 3 < 8 / 2 ∧
    (∀ i, 0 ≤ i → levels [] i = 0) ∧ (∀ i, 3 ≤ i → levels [3, 3, 3] i = 0) ∧
    ∀ i, (levels [3, 3, 3] i).toNat < 2 ^ 2 := by
  refine ⟨fun i => by simp [levels], fun i => (levels [3, 3, 3, 3] i).isLt, by decide, by decide,
    by decide, by decide, fun i _ => by simp [levels], fun i h => ?_,
    fun i => (levels [3, 3, 3] i).isLt⟩
  exact List.getD_eq_default _ _ (by simpa using h)

/-- Short last bytes: 1 bpp, 15 elements, and 2 bpp, 6 elements, in both bit orders. -/
theorem test_witness_padding :
    (let l : Latch := ⟨1, 0, 0, 5, 3, 128, ⟨0, 0, 0⟩⟩
     1 = l.bpp.toNat ∧ (l.bord = 0 ∨ l.bord = 1) ∧ 7 = l.seqLen 0 % 8 ∧ 7 ≠ 0 ∧
       1 = outLen (l.seqLen 0) 1 - 1) ∧
    (let l : Latch := ⟨2, 1, 0, 3, 2, 128, ⟨0, 0, 0⟩⟩
     2 = l.bpp.toNat ∧ (l.bord = 0 ∨ l.bord = 1) ∧ 2 = l.seqLen 0 % 4 ∧ 2 ≠ 0 ∧
       1 = outLen (l.seqLen 0) 2 - 1) := by decide

theorem test_witness_ceiling : ((1 = 1 ∨ 1 = 2) ∧ 9 ≤ 2 * (8 / 1)) ∧ (2 = 1 ∨ 2 = 2) ∧ 0 ≤ 0 * (8 / 2) := by
  decide

theorem test_witness_outside_run : State.reset.status ≠ .busy := by decide

theorem test_witness_frames :
    Instr.qnt1.slot ≠ .command ∧ Instr.qnt1 ≠ .pckm ∧ Instr.qnt1 ≠ .pckl ∧
    262143 ≠ State.reset.optr.toNat := by decide

/-- The end of a run, with a full and with a short last chunk, and with the host waiting. -/
theorem test_witness_finish :
    ∃ s s' : State,
      (s.status = .busy ∧ s.phase = .finish ∧ s.chi = 0 ∧
        ∀ e rest, s.pending = e :: rest → e.wait ≠ 0) ∧
      (s'.status = .busy ∧ s'.phase = .finish ∧ s'.chi ≠ 0 ∧
        ∀ e rest, s'.pending = e :: rest → e.wait ≠ 0) :=
  ⟨{ freshRun with phase := .finish },
    { freshRun with phase := .finish, chi := 1, pending := [⟨1, .poll⟩] },
    ⟨rfl, rfl, rfl, fun e rest h => by cases h⟩,
    ⟨rfl, rfl, by decide, fun e rest h => by cases h; decide⟩⟩

/-- `n` black pixels from address `k` up. -/
def blackFrom (k n : Nat) : Memory 32 :=
  (List.range' k n).map (fun a => (a, 0))

theorem memRead_blackFrom (n : Nat) : ∀ k a, k ≤ a → a < k + n → memRead (blackFrom k n) a = some 0 := by
  induction n with
  | zero => intro k a h1 h2; omega
  | succ n ih =>
    intro k a h1 h2
    show memRead ((k, 0) :: blackFrom (k + 1) n) a = some 0
    unfold memRead
    split
    · rfl
    · exact ih (k + 1) a (by omega) (by omega)

/-- A black picture of a supported geometry. -/
def blackPicture : State :=
  { sized 800 480 with src := blackFrom 0 384000, pending := [⟨2, .sw 0 5⟩, ⟨0, .poll⟩] }

/-- A START accepted on every instance, with every word it reads written. -/
theorem test_witness_run :
    blackPicture.status ≠ .busy ∧ (∀ e, e ∈ blackPicture.pending → e.op ≠ .reset) ∧
    (Config.geomCheck = true →
      (blackPicture.width = 800 ∧ blackPicture.height = 480) ∨
      (blackPicture.width = 480 ∧ blackPicture.height = 800)) ∧
    SourceLoaded blackPicture (latchOf 0 0 1 blackPicture) := by
  refine ⟨by simp [blackPicture, sized, State.reset], by simp [blackPicture], fun _ => .inl ⟨rfl, rfl⟩, fun n hn => ?_⟩
  have hlen : (latchOf 0 0 1 blackPicture).runLen = 384000 := rfl
  rw [hlen] at hn
  have haddr : scanAddr (latchOf 0 0 1 blackPicture) n = n := scanAddr_nonRotated rfl n
  rw [haddr]
  have : memRead blackPicture.src n = some 0 :=
    memRead_blackFrom 384000 0 n (Nat.zero_le n) (by omega)
  rw [this]
  rfl

/-- Two states that agree on the inputs of a run and differ elsewhere. -/
theorem test_witness_equal_inputs :
    ∃ s s' : State, s.status ≠ .busy ∧ s'.status ≠ .busy ∧
      (∀ e, e ∈ s.pending → e.op ≠ .reset) ∧ (∀ e, e ∈ s'.pending → e.op ≠ .reset) ∧
      s.width = s'.width ∧ s.height = s'.height ∧ s.thr1 = s'.thr1 ∧ s.thr2 = s'.thr2 ∧
      (∀ a, a < s.width.toNat * s.height.toNat →
        (memRead s.src a).isSome = true ∧ memRead s.src a = memRead s'.src a) ∧ s.out ≠ s'.out :=
  ⟨{ sized 2 1 with src := [(0, 7), (1, 9)] },
    { sized 2 1 with
      src := [(0, 7), (1, 9), (5, 1)], out := [(0, 1)], status := .error
      pending := [⟨1, .poll⟩] },
    by decide, by decide, by decide, by decide, rfl, rfl, rfl, rfl, by decide, by decide⟩

theorem test_witness_unused_thresholds :
    (gridRun 1 0 0).latch.bpp = 1 ∧ (gridRun 2 0 0).latch.bpp = 2 := by decide

theorem freshRun_accepted : freshRun.latch.refusal = 0 :=
  refusal_of_supported (by decide) (by decide) (by decide)

/-- The invariant holds of a run in progress, on every instance. -/
theorem freshRun_inv : Inv freshRun where
  srcCanonical := by simp [Memory.wf, freshRun, State.reset]
  outCanonical := by simp [Memory.wf, freshRun, State.reset]
  errExactlyInError := by decide
  outlenZero := fun _ => rfl
  doneAccepted := by decide
  doneLength := fun h => by simp [freshRun] at h
  doneListed := fun h => by simp [freshRun] at h
  running := fun _ =>
    { accepted := freshRun_accepted
      seqInside := fun _ => by show 0 < 384000; decide
      seqAtEnd := fun h => by simp [freshRun, State.reset] at h
      chiIsRest := by decide
      optrIsQuotient := by decide
      levelFits := fun h => by simp [freshRun, State.reset] at h
      outListed := fun k h => by simp [freshRun, State.reset] at h }

theorem freshRun_step :
    step freshRun
      = .next { freshRun with pixel := Config.freeWord 0, draws := 1, phase := .quantise } := rfl

/-- A run with host operations waiting, a POLL first, none of them a reset. -/
theorem test_witness_progress :
    Inv { freshRun with pending := [⟨0, .poll⟩, ⟨3, .lb 0⟩] } ∧
    ({ freshRun with pending := [⟨0, .poll⟩, ⟨3, .lb 0⟩] } : State).status = .busy ∧
    ∀ e, e ∈ [(⟨0, .poll⟩ : HostEvent), ⟨3, .lb 0⟩] → e.op ≠ .reset := by
  refine ⟨?_, rfl, by decide⟩
  obtain ⟨h1, h2, h3, h4, h5, h6, h7, h8⟩ := freshRun_inv
  exact ⟨h1, h2, h3, h4, h5, h6, h7, fun h =>
    ⟨(h8 h).1, (h8 h).2, (h8 h).3, (h8 h).4, (h8 h).5, (h8 h).6, (h8 h).7⟩⟩

/-- The invariant's step: a run that fetches its first pixel. -/
theorem test_witness_invariant :
    Inv freshRun ∧ step freshRun
      = .next { freshRun with pixel := Config.freeWord 0, draws := 1, phase := .quantise } :=
  ⟨freshRun_inv, freshRun_step⟩

/-- The invariant holds of an idle block with one host operation waiting. -/
theorem hosted_inv (op : HostOp) : Inv (hosted op) where
  srcCanonical := reset_wf.1
  outCanonical := reset_wf.2
  errExactlyInError := by simp [hosted, State.reset]
  outlenZero := fun _ => rfl
  doneAccepted := fun h => by simp [hosted, State.reset] at h
  doneLength := fun h => by simp [hosted, State.reset] at h
  doneListed := fun h => by simp [hosted, State.reset] at h
  running := fun h => by simp [hosted, State.reset] at h

/-- Each row of the table of STATE: reset, a run in which nothing lands, a run in which an operation
lands, a START, another operation. -/
theorem test_witness_transitions :
    (Inv (hosted .reset) ∧ nextHostOp (hosted .reset) = some .reset) ∧
    (Inv freshRun ∧ nextHostOp freshRun = none ∧ freshRun.status = .busy) ∧
    (Inv { freshRun with pending := [⟨0, .poll⟩, ⟨3, .lb 0⟩] } ∧
      nextHostOp { freshRun with pending := [⟨0, .poll⟩, ⟨3, .lb 0⟩] } = some .poll) ∧
    (Inv (hosted (.wr 0 0x00000001)) ∧ nextHostOp (hosted (.wr 0 1)) = some (.wr 0 0x00000001) ∧
      (0x00000001 : Word).getLsbD 0 = true ∧ (hosted (.wr 0 1)).status ≠ .busy) ∧
    (Inv (hosted (.wr 0 0x00000002)) ∧ nextHostOp (hosted (.wr 0 2)) = some (.wr 0 0x00000002) ∧
      (0x00000002 : Word).getLsbD 0 = false) :=
  ⟨⟨hosted_inv _, by decide⟩, ⟨freshRun_inv, by decide, rfl⟩,
    ⟨test_witness_progress.1, by decide⟩,
    ⟨hosted_inv _, by decide, by decide, by decide⟩, ⟨hosted_inv _, by decide, by decide⟩⟩

/-- A run during which a register write lands, and one in which nothing lands. -/
theorem test_witness_configuration :
    ({ freshRun with pending := [⟨0, .wr 3 5⟩] } : State).status = .busy ∧
    nextHostOp { freshRun with pending := [⟨0, .wr 3 5⟩] } = some (.wr 3 5) ∧
    nextHostOp freshRun = none := by decide

/-- Host operations that land outside a run, at the ends of their ranges. -/
theorem test_witness_host_ops :
    (∀ n ∈ [0, 1, 2, 3, 4, 5, 6, 7, 8], nextHostOp (hosted (.rd n)) = some (.rd n) ∧
      nextHostOp (hosted (.wr n 6)) = some (.wr n 6)) ∧
    (6 : Word).getLsbD 0 = false ∧ (hosted (.wr 0 6)).status ≠ .busy ∧
    nextHostOp (hosted (.sw 1048575 7)) = some (.sw 1048575 7) ∧
    nextHostOp (hosted (.lw 0)) = some (.lw 0) ∧ memRead (hosted (.lw 0)).src 0 = none ∧
    nextHostOp (hosted (.lb 262143)) = some (.lb 262143) ∧
    memRead (hosted (.lb 262143)).out 262143 = none ∧
    nextHostOp (hosted (.sb 262143 0)) = some (.sb 262143 0) ∧
    nextHostOp (hosted .poll) = some .poll ∧ nextHostOp (hosted .reset) = some .reset ∧
    (hosted .reset).pending.tail = [] := by decide

/-- Host operations that land during a run, and one that has to wait. -/
theorem test_witness_host_ops_busy :
    (∀ op ∈ [HostOp.rd 1, .rd 2, .rd 7, .wr 3 5, .sw 0 1, .lw 0, .lb 0, .sb 0 0, .poll],
      nextHostOp { freshRun with pending := [⟨0, op⟩] } = some op ∧ op ≠ .reset) ∧
    ({ freshRun with pending := [⟨0, .poll⟩] } : State).status = .busy ∧
    nextHostOp { freshRun with pending := [⟨0, .reset⟩] } = some .reset ∧
    nextHostOp { freshRun with pending := [⟨1, .poll⟩] } = none := by decide

/-- Each register and each state of the block, for a register read. -/
theorem test_witness_register_reads :
    State.reset.status = .idle ∧ freshRun.status = .busy ∧
    ({ State.reset with status := .done } : State).status = .done ∧
    ({ State.reset with status := .error, err := 1 } : State).status = .error := by decide

/-- Stored values for the host's memory reads. -/
theorem test_witness_memory_reads :
    memRead ({ hosted (.lw 5) with src := (gridRun 1 0 0).src }).src (5 : SrcIndex).toNat
      = some 0xFF000000 ∧
    memRead ({ hosted (.lb 262143) with out := [(262143, 0x7F)] }).out (262143 : OutIndex).toNat
      = some 0x7F := by decide

theorem test_witness_host_encode :
    ∃ s : State, s.status ≠ .busy ∧ s.pending = encodeProgram 1 1 2 ++ [⟨0, .rd 7⟩] :=
  ⟨{ State.reset with pending := encodeProgram 1 1 2 ++ [⟨0, .rd 7⟩] }, by decide, rfl⟩

end Sys2Proof.Tests
end

section
/-! O48: the host during a run (20_memory.md R45). -/

namespace Sys2Proof.Machine

/-- `t` is `s` but for the host's side and the count of free values. -/
def SameBlock (s t : State) : Prop :=
  ∃ (p : List HostEvent) (r : List Reply) (d : Nat),
    t = { s with pending := p, replies := r, draws := d }

/-! ### Each host operation during a run -/

theorem exec_encode_busy {s : State} (rot : BitVec 1) (bord bpp : BitVec 2)
    (hb : s.status = .busy) : exec (.encode rot bord bpp) s = .next s := by
  simp [exec, execEncode, hb]

theorem hostWriteReg_busy {s : State} (n : Nat) (v : Word) (hb : s.status = .busy) :
    hostWriteReg n v s = s := if_pos hb

theorem hostWriteSrc_busy {s : State} (a : SrcIndex) (v : Word) (hb : s.status = .busy) :
    hostWriteSrc a v s = s := if_pos hb

theorem hostReadSrc_busy {s : State} (a : SrcIndex) (hb : s.status = .busy) :
    hostReadSrc a s = reply (.src a (drawWord s).1) (drawWord s).2 := by
  simp [hostReadSrc, hb]

theorem hostReadOut_busy {s : State} (k : OutIndex) (hb : s.status = .busy) :
    hostReadOut k s = reply (.out k (drawByte s).1) (drawByte s).2 := by
  simp [hostReadOut, hb]

theorem hostPoll_busy {s : State} (hb : s.status = .busy) :
    hostPoll s = { hostReadReg 1 s with pending := ⟨1, .poll⟩ :: s.pending } := if_pos hb

/-- No host operation but reset reaches the block during a run: writes are ignored, and reads and polls
leave only replies, free values and a poll to come. -/
theorem landHostOp_busy_sameBlock {s : State} {op : HostOp} (hb : s.status = .busy)
    (hr : op ≠ .reset) : SameBlock s (landHostOp op s) := by
  cases op with
  | rd n => exact ⟨_, _, _, rfl⟩
  | wr n v => exact ⟨_, _, _, hostWriteReg_busy n v hb⟩
  | sw a v => exact ⟨_, _, _, hostWriteSrc_busy a v hb⟩
  | lw a => exact ⟨_, _, _, hostReadSrc_busy a hb⟩
  | lb k => exact ⟨_, _, _, hostReadOut_busy k hb⟩
  | sb k v => exact ⟨_, _, _, rfl⟩
  | poll => exact ⟨_, _, _, hostPoll_busy hb⟩
  | reset => exact absurd rfl hr

/-- During a run a host operation has the effect of `landHostOp`, even a write of CTRL with START set: the
ENCODE it issues is ignored whole (43_control.md R88), as the write is. -/
theorem step_hostOp_busy {s : State} {op : HostOp} (hb : s.status = .busy)
    (ho : nextHostOp s = some op) : step s = .next (landHostOp op (takeHostOp s)) := by
  have hbusy : (takeHostOp s).status = .busy := by rw [takeHostOp_status, hb]
  cases hi : issuedBy op with
  | none => simp only [step, ho, hi]
  | some i =>
    obtain ⟨v, rfl, -, rfl⟩ := issuedBy_some hi
    simp only [step, ho, hi, exec_encode_busy _ _ _ hbusy, landHostOp, hostWriteReg_busy _ _ hbusy]

/-! ### What register reads return during a run -/

/-- In a run STATUS reads BUSY, and ERR and OUTLEN are still what START cleared them to
(10_state.md R13, R18). -/
theorem readReg_busy {s : State} {n : Nat} (hi : Inv s) (hb : s.status = .busy)
    (hn : n = 1 ∨ n = 2 ∨ n = 7) : readReg s n = if n = 1 then 1 else 0 := by
  have herr : s.err = 0 := by
    by_contra he
    simp [hi.errExactlyInError.mp he] at hb
  have hlen : s.outlen = 0 := hi.outlenZero (by simp [hb])
  rcases hn with rfl | rfl | rfl
  · simp [readReg, hb, RunState.code]
  · simp [readReg, herr]
  · simp [readReg, hlen]

theorem readReg_takeHostOp (s : State) (n : Nat) : readReg (takeHostOp s) n = readReg s n := rfl

/-- Settles O48: a host operation during a run leaves the block as it is, and under the invariant STATUS,
ERR and OUTLEN read as the run has them. -/
theorem hostCannotDisturbARun : Obligations.HostCannotDisturbARun := by
  intro s op hb ho hr
  have hstep := step_hostOp_busy hb ho
  refine ⟨?_, fun hi n hop hn => ?_⟩
  · obtain ⟨p, r, d, hland⟩ := landHostOp_busy_sameBlock (s := takeHostOp s) hb hr
    exact ⟨p, r, d, hstep.trans (congrArg _ hland)⟩
  · subst hop
    rw [hstep, ← readReg_busy hi hb hn, ← readReg_takeHostOp]
    rfl

end Sys2Proof.Machine
end

section
/-! O1: a control word selects the rows of its slots by mask and match (30_encoding.md R50, R51). -/

namespace Sys2Proof

/-! ### The fields of a control word, as masked bits -/

/-- The word that holds field `f` from bit `k` up and is 0 elsewhere. -/
def placeField {w : Nat} (k : Nat) (f : BitVec w) : Word := f.setWidth 32 <<< k

theorem and_placeField_allOnes (cw : Word) (k w : Nat) :
    cw &&& placeField k (BitVec.allOnes w) = placeField k (cw.extractLsb' k w) := by
  ext j hj
  by_cases hk : j < k
  · simp [placeField, hk]
  · have hsum : k + (j - k) = j := by omega
    simp [placeField, hk, hsum, BitVec.getLsbD_eq_getElem hj, Bool.and_comm]

/-- START is 1 exactly when bit 0 of the word, masked, is. -/
theorem cwStart_iff_and_one (cw : Word) : cwStart cw = true ↔ cw &&& 0x00000001 = 0x00000001 := by
  have hbit : cw &&& 0x00000001 = (BitVec.ofBool (cwStart cw)).setWidth 32 :=
    BitVec.and_one_eq_setWidth_ofBool_getLsbD
  rw [hbit]
  cases cwStart cw <;> decide

/-! ### The rows of a slot: the slot's mask, and the code each row's match puts in the field -/

/-- Where a row's mask covers one field, and a selection of rows from that field gives the row exactly for
the code in the row's match, the selection on a word is the test by mask and match. -/
theorem selects_iff_and_mask (cw : Word) {i : Instr} {k w : Nat} {row : BitVec w → Instr}
    (hmask : i.mask = placeField k (BitVec.allOnes w))
    (hcode : ∀ f, row f = i ↔ placeField k f = i.pattern) :
    row (cw.extractLsb' k w) = i ↔ cw &&& i.mask = i.pattern := by
  rw [hmask, and_placeField_allOnes]
  exact hcode _

theorem quantiserRow_cwBpp_iff (cw : Word) {i : Instr} (h : i.slot = .quantiser) :
    quantiserRow (cwBpp cw) = i ↔ cw &&& i.mask = i.pattern :=
  selects_iff_and_mask cw (by cases i <;> cases h <;> rfl) (by cases i <;> cases h <;> decide)

theorem mapperRow_cwRot_iff (cw : Word) {i : Instr} (h : i.slot = .mapper) :
    mapperRow (cwRot cw) = i ↔ cw &&& i.mask = i.pattern :=
  selects_iff_and_mask cw (by cases i <;> cases h <;> rfl) (by cases i <;> cases h <;> decide)

theorem packerRow_cwBord_iff (cw : Word) {i : Instr} (h : i.slot = .packer) :
    packerRow (cwBord cw) = i ↔ cw &&& i.mask = i.pattern :=
  selects_iff_and_mask cw (by cases i <;> cases h <;> rfl) (by cases i <;> cases h <;> decide)

/-! ### Selecting rows and issuing the command -/

theorem rowOf_slot_iff (cw : Word) {i : Instr} (h : i.slot ≠ .command) :
    rowOf i.slot cw = i ↔ cw &&& i.mask = i.pattern := by
  cases hs : i.slot with
  | command => exact absurd hs h
  | quantiser => exact quantiserRow_cwBpp_iff cw hs
  | mapper => exact mapperRow_cwRot_iff cw hs
  | packer => exact packerRow_cwBord_iff cw hs

/-- Only the command slot may select no row. -/
theorem decodeSlot_of_ne_command {sl : Slot} (cw : Word) (h : sl ≠ .command) :
    decodeSlot sl cw = some (rowOf sl cw) := by
  cases sl with
  | command => exact absurd rfl h
  | quantiser | mapper | packer => rfl

theorem commandOf_of_start {cw : Word} (h : cwStart cw = true) :
    commandOf cw = some (.encode (cwRot cw) (cwBord cw) (cwBpp cw)) := if_pos h

theorem commandOf_of_not_start {cw : Word} (h : ¬ cwStart cw = true) : commandOf cw = none :=
  if_neg h

/-- Settles O1: in each slot the mask cuts out the slot's field and the match is the row's code there. -/
theorem controlWordSelectsRowsByMask : Obligations.ControlWordSelectsRowsByMask := by
  refine ⟨fun cw i hi => ?_, fun cw => ⟨fun h0 => ?_, fun h1 => ?_⟩⟩
  · rw [decodeSlot_of_ne_command cw hi, Option.some_inj]
    exact rowOf_slot_iff cw hi
  · have hstart : ¬ cwStart cw = true := by
      rw [cwStart_iff_and_one, h0]
      decide
    exact commandOf_of_not_start hstart
  · exact commandOf_of_start ((cwStart_iff_and_one cw).mpr h1)

end Sys2Proof
end

section
/-! O14, O12, O13: the quantiser on the channels of a pixel word (40_quantizer.md R64 to R67). -/

namespace Sys2Proof.Machine

/-! ### The channels of a pixel word, as its low bytes -/

theorem chan0_eq_ofNat (p : Word) : chan0 p = BitVec.ofNat 8 p.toNat := rfl

theorem chan1_eq_ofNat (p : Word) : chan1 p = BitVec.ofNat 8 (p.toNat / 256) :=
  congrArg (BitVec.ofNat 8) (Nat.shiftRight_eq_div_pow p.toNat 8)

theorem chan2_eq_ofNat (p : Word) : chan2 p = BitVec.ofNat 8 (p.toNat / 65536) :=
  congrArg (BitVec.ofNat 8) (Nat.shiftRight_eq_div_pow p.toNat 16)

@[simp] theorem chan0_toNat (p : Word) : (chan0 p).toNat = p.toNat % 256 := by
  rw [chan0_eq_ofNat, BitVec.toNat_ofNat]

@[simp] theorem chan1_toNat (p : Word) : (chan1 p).toNat = p.toNat / 256 % 256 := by
  rw [chan1_eq_ofNat, BitVec.toNat_ofNat]

@[simp] theorem chan2_toNat (p : Word) : (chan2 p).toNat = p.toNat / 65536 % 256 := by
  rw [chan2_eq_ofNat, BitVec.toNat_ofNat]

/-- A field that the mask covers with ones is not changed by the mask. -/
theorem extractLsb'_and_of_allOnes {w start len : Nat} {m : BitVec w}
    (hm : m.extractLsb' start len = BitVec.allOnes len) (p : BitVec w) :
    (p &&& m).extractLsb' start len = p.extractLsb' start len := by
  rw [BitVec.extractLsb'_and, hm, BitVec.and_allOnes]

theorem chan0_and_colour (p : Word) : chan0 (p &&& 0x00FFFFFF) = chan0 p :=
  extractLsb'_and_of_allOnes (by decide) p

theorem chan1_and_colour (p : Word) : chan1 (p &&& 0x00FFFFFF) = chan1 p :=
  extractLsb'_and_of_allOnes (by decide) p

theorem chan2_and_colour (p : Word) : chan2 (p &&& 0x00FFFFFF) = chan2 p :=
  extractLsb'_and_of_allOnes (by decide) p

/-! ### The two rules, with the comparisons on naturals -/

theorem qnt1_eq_ite_toNat (c0 c1 c2 t : Byte) :
    qnt1 c0 c1 c2 t =
      if c0.toNat ≤ t.toNat ∧ c1.toNat ≤ t.toNat ∧ c2.toNat ≤ t.toNat then 1 else 0 := by
  simp only [qnt1, BitVec.le_def]

theorem anyGt_iff_toNat (c0 c1 c2 t : Byte) :
    anyGt c0 c1 c2 t = true ↔
      t.toNat < c0.toNat ∨ t.toNat < c1.toNat ∨ t.toNat < c2.toNat := by
  simp only [anyGt, Bool.or_eq_true, decide_eq_true_eq, BitVec.lt_def, or_assoc]

/-! ### `Quant` -/

theorem quant_of_bpp_one {l : Latch} (h : l.bpp = 1) (p : Word) :
    quant l p = qnt1 (chan0 p) (chan1 p) (chan2 p) l.t := if_pos h

theorem quant_of_bpp_two {l : Latch} (h : l.bpp = 2) (p : Word) :
    quant l p = qnt2 (chan0 p) (chan1 p) (chan2 p) l.thr2.t0 l.thr2.t1 l.thr2.t2 :=
  if_neg (by rw [h]; decide)

/-- `Quant` does not see the alpha byte. -/
theorem quant_and_colour (l : Latch) (p : Word) : quant l (p &&& 0x00FFFFFF) = quant l p := by
  simp only [quant, chan0_and_colour, chan1_and_colour, chan2_and_colour]

/-- Settles O14: the channels are the three low bytes, the mask of the colour bytes keeps them, and a
run of the invariant has a configuration without causes. -/
theorem quantTakesTheFirstThreeChannels : Obligations.QuantTakesTheFirstThreeChannels := by
  refine ⟨fun l p hbpp => ?_, fun l p hbpp => ?_, fun l p q hpq => ?_, fun s hi hb => ?_⟩
  · rw [quant_of_bpp_one hbpp, qnt1_eq_ite_toNat, chan0_toNat, chan1_toNat, chan2_toNat]
    split <;> rfl
  · rw [quant_of_bpp_two hbpp, chan0_eq_ofNat, chan1_eq_ofNat, chan2_eq_ofNat]
  · rw [← quant_and_colour l p, hpq, quant_and_colour]
  · exact (refusal_zero (hi.running hb).accepted).1

/-! ### The stage operations -/

theorem decodeSlot_quantiser_iff (cw : Word) {i : Instr} (h : i.slot = .quantiser) :
    decodeSlot .quantiser cw = some i ↔ cw &&& i.mask = i.pattern := by
  rw [decodeSlot_of_ne_command cw (by decide), Option.some_inj]
  exact quantiserRow_cwBpp_iff cw h

theorem exec_qnt1_busy {s : State} (hb : s.status = .busy) :
    exec .qnt1 s = .next
      (setLevel (qnt1 (chan0 s.pixel) (chan1 s.pixel) (chan2 s.pixel) s.latch.t) s) :=
  whileBusy_busy hb

theorem exec_qnt2_busy {s : State} (hb : s.status = .busy) :
    exec .qnt2 s = .next
      (setLevel (qnt2 (chan0 s.pixel) (chan1 s.pixel) (chan2 s.pixel)
        s.latch.thr2.t0 s.latch.thr2.t1 s.latch.thr2.t2) s) :=
  whileBusy_busy hb

/-- Settles O12: QNT1 sets the level that `qnt1` gives for the fetched pixel, compared as naturals. -/
theorem qnt1QuantisesThePixel : Obligations.Qnt1QuantisesThePixel := by
  refine ⟨fun cw => decodeSlot_quantiser_iff cw rfl, fun s hb => ⟨.pack, ?_⟩⟩
  rw [exec_qnt1_busy hb, qnt1_eq_ite_toNat, chan0_toNat, chan1_toNat, chan2_toNat]
  rfl

/-- Settles O13: QNT2 sets the level that `qnt2` gives for the fetched pixel, each of its tests compared
as naturals. -/
theorem qnt2QuantisesThePixel : Obligations.Qnt2QuantisesThePixel := by
  refine ⟨fun cw => decodeSlot_quantiser_iff cw rfl, fun s hb => ⟨.pack, ?_⟩⟩
  rw [exec_qnt2_busy hb]
  simp only [qnt2, anyGt_iff_toNat, chan0_toNat, chan1_toNat, chan2_toNat]
  rfl

end Sys2Proof.Machine
end

section
/-! O19, O20: the closed forms of the two scan orders are their loop nests (41_mapper.md R71, R72). -/

namespace Sys2Proof.Machine

theorem decodeSlot_mapper_iff (cw : Word) {i : Instr} (h : i.slot = .mapper) :
    decodeSlot .mapper cw = some i ↔ cw &&& i.mask = i.pattern := by
  rw [decodeSlot_of_ne_command cw (by decide), Option.some_inj]
  exact mapperRow_cwRot_iff cw h

/-! ### A counter taken apart by quotient and remainder runs a nest of two loops -/

theorem range_mul_map_div_mod {α : Type} (f : Nat → Nat → α) (a b : Nat) :
    (List.range (a * b)).map (fun n => f (n / b) (n % b))
      = (List.range a).flatMap (fun q => (List.range b).map (f q)) := by
  induction a with
  | zero => simp
  | succ a ih =>
    have hlast : (List.range b).map (fun r => f ((a * b + r) / b) ((a * b + r) % b))
        = (List.range b).map (f a) := by
      refine List.map_congr_left fun r hmem => ?_
      have hr : r < b := List.mem_range.mp hmem
      rw [Nat.mul_add_mod_of_lt hr, Nat.mul_comm a b, Nat.mul_add_div (by omega),
        Nat.div_eq_of_lt hr, Nat.add_zero]
    rw [Nat.succ_mul, List.range_add, List.map_append, List.map_map, ih, List.range_succ,
      List.flatMap_append, List.flatMap_singleton, ← hlast]
    rfl

/-! ### The two scans -/

theorem seqLen_nonRotated (last w h : Nat) : seqLen last w h false = h * w := Nat.mul_comm w h

theorem seqLen_rotated (last w h : Nat) : seqLen last w h true = (w - last) * h := rfl

theorem srcAddr_coordN (n w : Nat) : srcAddr w (coordN n w) = n := Nat.div_add_mod' n w

/-- Settles O19: row `n / w` is the outer counter of the scan, column `n % w` the inner one, and the
row-major address puts them together again. -/
theorem nonRotatedScanIsRowMajor : Obligations.NonRotatedScanIsRowMajor := by
  refine ⟨fun cw => decodeSlot_mapper_iff cw rfl, fun last w h => ⟨?_, fun n => srcAddr_coordN n w⟩⟩
  rw [seqLen_nonRotated]
  exact range_mul_map_div_mod (fun y x => (x, y)) h w

/-- Settles O20: `n / h` counts the columns to the left of the last one, row `n % h` is the inner
counter. -/
theorem rotatedScanIsColumnsDescending : Obligations.RotatedScanIsColumnsDescending := by
  refine ⟨fun cw => decodeSlot_mapper_iff cw rfl, fun last w h => ?_⟩
  rw [seqLen_rotated]
  exact range_mul_map_div_mod (fun c y => (w - 1 - c, y)) (w - last) h

end Sys2Proof.Machine
end

section
/-! O30, O25, O26: the number of bytes, and the packer's byte as a number (42_packer.md R79 to R83). -/

namespace Sys2Proof.Machine

theorem decodeSlot_packer_iff (cw : Word) {i : Instr} (h : i.slot = .packer) :
    decodeSlot .packer cw = some i ↔ cw &&& i.mask = i.pattern := by
  rw [decodeSlot_of_ne_command cw (by decide), Option.some_inj]
  exact packerRow_cwBord_iff cw h

/-! ### The number of bytes -/

theorem ppb_pos {bpp : Nat} (h : bpp = 1 ∨ bpp = 2) : 0 < ppb bpp := by
  rcases h with rfl | rfl <;> decide

/-- `m` bytes are enough exactly when they have room for `n` elements. -/
theorem outLen_le_iff {bpp : Nat} (h : bpp = 1 ∨ bpp = 2) (n m : Nat) :
    outLen n bpp ≤ m ↔ n ≤ m * ppb bpp := by
  rw [Nat.mul_comm]
  exact ceilDiv_le_iff_le_mul (ppb_pos h)

/-- Settles O30: R80's quotient is the ceiling, the lower adjoint of multiplication. -/
theorem outLenIsTheCeiling : Obligations.OutLenIsTheCeiling := fun n _ hbpp =>
  ⟨rfl, (outLen_le_iff hbpp n _).mp le_rfl, fun m => (outLen_le_iff hbpp n m).mpr⟩

/-- When the scan ends inside a byte, the bytes before the last one and the rest make up the scan. -/
theorem outLen_pred_mul_add_mod {n bpp : Nat} (hbpp : bpp = 1 ∨ bpp = 2) (hr : n % ppb bpp ≠ 0) :
    (outLen n bpp - 1) * ppb bpp + n % ppb bpp = n := by
  rcases hbpp with rfl | rfl <;> simp only [outLen, ppb] at hr ⊢ <;> omega

/-! ### Levels placed in fields that do not overlap, as numbers -/

theorem level_mul_two_pow_lt {a bpp slot d : Nat} (ha : a < 2 ^ bpp) (hd : slot + bpp ≤ d) :
    a * 2 ^ slot < 2 ^ d :=
  calc a * 2 ^ slot < 2 ^ bpp * 2 ^ slot := Nat.mul_lt_mul_of_pos_right ha (Nat.two_pow_pos slot)
    _ = 2 ^ (slot + bpp) := by rw [Nat.pow_add, Nat.mul_comm]
    _ ≤ 2 ^ d := Nat.pow_le_pow_right Nat.two_pos hd

theorem placed_toNat {v : Level} {bpp slot : Nat} (hv : v.toNat < 2 ^ bpp) (hs : slot + bpp ≤ 8) :
    (placed v slot).toNat = v.toNat * 2 ^ slot := by
  have hv8 : v.toNat < 2 ^ 8 := by omega
  rw [placed, BitVec.toNat_shiftLeft, BitVec.toNat_setWidth, Nat.mod_eq_of_lt hv8, Nat.shiftLeft_eq,
    Nat.mod_eq_of_lt (level_mul_two_pow_lt hv hs)]

@[simp] theorem placed_zero (slot : Nat) : placed 0 slot = 0 := by simp [placed]

theorem placed_and_placed {u v : Level} {s t bpp : Nat} (hu : u.toNat < 2 ^ bpp) (hs : s + bpp ≤ t) :
    placed u s &&& placed v t = 0 := by
  ext k hk
  by_cases hkt : k < t
  · simp [placed, hkt]
  · have hbit : u.getLsbD (k - s) = false := Nat.testBit_lt_two_pow
      (hu.trans_le (Nat.pow_le_pow_right Nat.two_pos (by omega)))
    simp [placed, hbit]

/-- The fields of `bpp` bits from `slot 0`, .., `slot (n-1)` up lie in a byte and do not overlap. -/
def FieldsApart (bpp : Nat) (slot : Nat → Nat) (n : Nat) : Prop :=
  ∀ j < n, slot j + bpp ≤ 8 ∧ ∀ i < j, slot i + bpp ≤ slot j ∨ slot j + bpp ≤ slot i

theorem FieldsApart.of_succ {bpp n : Nat} {slot : Nat → Nat} (h : FieldsApart bpp slot (n + 1)) :
    FieldsApart bpp slot n := fun j hj => h j (by omega)

theorem slotM_add (bpp : Nat) {i : Nat} (hi : i < ppb bpp) :
    slotM bpp i + bpp = (ppb bpp - i) * bpp := by
  rw [slotM, ← Nat.succ_mul]
  congr 1
  omega

theorem slotL_add (bpp i : Nat) : slotL bpp i + bpp = (i + 1) * bpp := (Nat.succ_mul i bpp).symm

/-- The slots of R79 cut the byte into fields, in MSB order here and in LSB order below. -/
theorem fieldsApart_slotM (bpp : Nat) : FieldsApart bpp (slotM bpp) (ppb bpp) := by
  refine fun j hj => ⟨?_, fun i hi => .inr ?_⟩
  · rw [slotM_add bpp hj]
    exact (Nat.mul_le_mul_right bpp (Nat.sub_le _ j)).trans (Nat.div_mul_le_self 8 bpp)
  · rw [slotM_add bpp hj]
    exact Nat.mul_le_mul_right bpp (by omega)

theorem fieldsApart_slotL (bpp : Nat) : FieldsApart bpp (slotL bpp) (ppb bpp) := by
  refine fun j hj => ⟨?_, fun i hi => .inl ?_⟩
  · rw [slotL_add]
    exact (Nat.mul_le_mul_right bpp hj).trans (Nat.div_mul_le_self 8 bpp)
  · rw [slotL_add]
    exact Nat.mul_le_mul_right bpp hi

theorem composed_and_eq_zero {slot : Nat → Nat} {v : Nat → Level} {x : Byte} {n : Nat}
    (h : ∀ i < n, placed (v i) (slot i) &&& x = 0) : composed slot v n &&& x = 0 := by
  induction n with
  | zero => simp [composed]
  | succ n ih =>
    rw [composed, BitVec.and_or_distrib_right, ih fun i hi => h i (by omega), h n (by omega)]
    rfl

/-- R81's reading of the OR as a sum: the fields are disjoint. -/
theorem composed_toNat {bpp n : Nat} {slot : Nat → Nat} {v : Nat → Level}
    (hs : FieldsApart bpp slot n) (hv : ∀ i, (v i).toNat < 2 ^ bpp) :
    (composed slot v n).toNat = ∑ i ∈ Finset.range n, (v i).toNat * 2 ^ slot i := by
  induction n with
  | zero => rfl
  | succ n ih =>
    obtain ⟨hfit, hapart⟩ := hs n (Nat.lt_succ_self n)
    have hzero : composed slot v n &&& placed (v n) (slot n) = 0 := by
      refine composed_and_eq_zero fun i hi => ?_
      rcases hapart i hi with h | h
      · exact placed_and_placed (hv i) h
      · rw [BitVec.and_comm]
        exact placed_and_placed (hv n) h
    rw [composed, ← BitVec.add_eq_or_of_and_eq_zero _ _ hzero, BitVec.toNat_add_of_and_eq_zero hzero,
      ih hs.of_succ, placed_toNat (hv n) hfit, Finset.sum_range_succ]

theorem rawM_toNat {bpp : Nat} {v : Nat → Level} (hv : ∀ i, (v i).toNat < 2 ^ bpp) :
    (rawM bpp v).toNat = ∑ i ∈ Finset.range (ppb bpp), (v i).toNat * 2 ^ slotM bpp i :=
  composed_toNat (fieldsApart_slotM bpp) hv

theorem rawL_toNat {bpp : Nat} {v : Nat → Level} (hv : ∀ i, (v i).toNat < 2 ^ bpp) :
    (rawL bpp v).toNat = ∑ i ∈ Finset.range (ppb bpp), (v i).toNat * 2 ^ slotL bpp i :=
  composed_toNat (fieldsApart_slotL bpp) hv

/-! ### The inverted byte -/

theorem xor_ones_toNat (x : Byte) : (x ^^^ 0xFF).toNat = 255 - x.toNat := by
  have hnot : x ^^^ 0xFF = ~~~x := BitVec.xor_allOnes
  rw [hnot, BitVec.toNat_not]

theorem packM_toNat (bpp : Nat) (v : Nat → Level) : (packM bpp v).toNat = 255 - (rawM bpp v).toNat :=
  xor_ones_toNat _

theorem packL_toNat (bpp : Nat) (v : Nat → Level) : (packL bpp v).toNat = 255 - (rawL bpp v).toNat :=
  xor_ones_toNat _

/-- Settles O25: the sum over the descending slots, written out at both widths. -/
theorem packMIsTheInvertedSumOfFields : Obligations.PackMIsTheInvertedSumOfFields := by
  refine ⟨fun cw => decodeSlot_packer_iff cw rfl, fun v => ⟨fun hv => ?_, ?_⟩⟩
  · rw [packM_toNat, rawM_toNat hv]
    simp only [ppb, slotM, Nat.reduceDiv, Finset.sum_range_succ, Finset.sum_range_zero]
    omega
  · rw [packM_toNat, rawM_toNat fun i => (v i).isLt]
    simp only [ppb, slotM, Nat.reduceDiv, Finset.sum_range_succ, Finset.sum_range_zero]
    omega

/-- Settles O26: the sum over the ascending slots, written out at both widths. -/
theorem packLIsTheInvertedSumOfFields : Obligations.PackLIsTheInvertedSumOfFields := by
  refine ⟨fun cw => decodeSlot_packer_iff cw rfl, fun v => ⟨fun hv => ?_, ?_⟩⟩
  · rw [packL_toNat, rawL_toNat hv]
    simp only [ppb, slotL, Nat.reduceDiv, Finset.sum_range_succ, Finset.sum_range_zero]
    omega
  · rw [packL_toNat, rawL_toNat fun i => (v i).isLt]
    simp only [ppb, slotL, Nat.reduceDiv, Finset.sum_range_succ, Finset.sum_range_zero]
    omega

end Sys2Proof.Machine
end

section
/-! O29: the padding of a short last byte (42_packer.md R84). -/

namespace Sys2Proof.Machine

/-! ### The levels of a chunk, and its byte -/

theorem quant_toNat_lt {l : Latch} (h : l.bpp.toNat = 1 ∨ l.bpp.toNat = 2) (p : Word) :
    (quant l p).toNat < 2 ^ l.bpp.toNat := by
  rcases h with h | h
  · rw [quant_of_bpp_one (BitVec.eq_of_toNat_eq h), qnt1_eq_ite_toNat, h]
    split <;> decide
  · rw [h]
    exact (quant l p).isLt

theorem lev_of_le {last n : Nat} {l : Latch} (src : Nat → Word) (h : l.seqLen last ≤ n) :
    lev last l src n = 0 := if_neg (Nat.not_lt.mpr h)

theorem lev_toNat_lt {l : Latch} (h : l.bpp.toNat = 1 ∨ l.bpp.toNat = 2) (last : Nat)
    (src : Nat → Word) (n : Nat) : (lev last l src n).toNat < 2 ^ l.bpp.toNat := by
  unfold lev
  split
  · exact quant_toNat_lt h _
  · exact Nat.two_pow_pos _

theorem outByte_of_bord_zero {l : Latch} (h : l.bord = 0) (last : Nat) (src : Nat → Word) (k : Nat) :
    outByte last l src k
      = packM l.bpp.toNat (fun i => lev last l src (k * ppb l.bpp.toNat + i)) := if_pos h

theorem outByte_of_bord_one {l : Latch} (h : l.bord = 1) (last : Nat) (src : Nat → Word) (k : Nat) :
    outByte last l src k
      = packL l.bpp.toNat (fun i => lev last l src (k * ppb l.bpp.toNat + i)) :=
  if_neg (by rw [h]; decide)

/-! ### The raw byte of a chunk with zeros from element `r` on -/

theorem two_pow_dvd_rawM {bpp r : Nat} {v : Nat → Level} (hv : ∀ i, (v i).toNat < 2 ^ bpp)
    (hz : ∀ i, r ≤ i → v i = 0) : 2 ^ ((ppb bpp - r) * bpp) ∣ (rawM bpp v).toNat := by
  rw [rawM_toNat hv]
  refine Finset.dvd_sum fun i _ => ?_
  by_cases hi : r ≤ i
  · simp [hz i hi]
  · exact Dvd.dvd.mul_left (pow_dvd_pow 2 (Nat.mul_le_mul_right bpp (by omega))) _

theorem composed_toNat_lt {slot : Nat → Nat} {v : Nat → Level} {d n : Nat}
    (h : ∀ i < n, (placed (v i) (slot i)).toNat < 2 ^ d) : (composed slot v n).toNat < 2 ^ d := by
  induction n with
  | zero => exact Nat.two_pow_pos d
  | succ n ih =>
    rw [composed, BitVec.toNat_or]
    exact Nat.or_lt_two_pow (ih fun i hi => h i (by omega)) (h n (by omega))

theorem rawL_toNat_lt {bpp r : Nat} {v : Nat → Level} (hv : ∀ i, (v i).toNat < 2 ^ bpp)
    (hz : ∀ i, r ≤ i → v i = 0) : (rawL bpp v).toNat < 2 ^ (r * bpp) := by
  refine composed_toNat_lt fun i hi => ?_
  by_cases hir : r ≤ i
  · rw [hz i hir, placed_zero]
    exact Nat.two_pow_pos _
  · rw [placed_toNat (hv i) (fieldsApart_slotL bpp i hi).1]
    refine level_mul_two_pow_lt (hv i) ?_
    rw [slotL_add]
    exact Nat.mul_le_mul_right bpp (by omega)

/-! ### Its complement has ones where the raw byte is empty -/

theorem toNat_lt_two_pow_mul {d e : Nat} (hde : d + e = 8) (x : Byte) : x.toNat < 2 ^ d * 2 ^ e := by
  rw [← Nat.pow_add, hde]
  exact x.isLt

/-- The complement of a byte, in the form of the library's lemmas on division. -/
theorem ones_sub_eq {d e : Nat} (hde : d + e = 8) (x : Nat) : 255 - x = 2 ^ d * 2 ^ e - (x + 1) := by
  rw [← Nat.pow_add, hde]
  omega

theorem ones_sub_mod_two_pow {d e : Nat} {x : Byte} (hde : d + e = 8) (hx : 2 ^ d ∣ x.toNat) :
    (255 - x.toNat) % 2 ^ d = 2 ^ d - 1 := by
  rw [ones_sub_eq hde, Nat.mul_sub_mod (toNat_lt_two_pow_mul hde x), Nat.mod_eq_zero_of_dvd hx]

theorem ones_sub_div_two_pow {d e : Nat} {x : Byte} (hde : d + e = 8) (hx : x.toNat < 2 ^ d) :
    (255 - x.toNat) / 2 ^ d = 2 ^ e - 1 := by
  rw [ones_sub_eq hde, Nat.mul_sub_div _ _ _ (toNat_lt_two_pow_mul hde x), Nat.div_eq_of_lt hx]

/-- At both widths the used and the padded fields fill the byte. -/
theorem used_add_padded {bpp r : Nat} (hbpp : bpp = 1 ∨ bpp = 2) (hr : r ≤ ppb bpp) :
    r * bpp + (ppb bpp - r) * bpp = 8 := by
  rw [← Nat.add_mul, Nat.add_sub_cancel' hr]
  rcases hbpp with rfl | rfl <;> rfl

/-- Settles O29: the zero levels past the scan leave the low fields of the raw byte, or the high ones,
empty, and the inversion fills them with ones. -/
theorem paddedBitsAreOnes : Obligations.PaddedBitsAreOnes := by
  rintro last l src _ _ r k rfl hbpp - rfl hr hr0 rfl
  have hlen : (outLen (l.seqLen last) l.bpp.toNat - 1) * ppb l.bpp.toNat + r = l.seqLen last := by
    rw [hr]
    exact outLen_pred_mul_add_mod hbpp (hr ▸ hr0)
  have hz : ∀ i, r ≤ i →
      lev last l src ((outLen (l.seqLen last) l.bpp.toNat - 1) * ppb l.bpp.toNat + i) = 0 :=
    fun i hi => lev_of_le src (by omega)
  have hfill := used_add_padded hbpp (hr ▸ (Nat.mod_lt _ (ppb_pos hbpp)).le)
  refine ⟨hlen, hz, fun hm => ?_, fun hl => ?_⟩
  · rw [outByte_of_bord_zero hm, packM_toNat]
    exact ones_sub_mod_two_pow ((Nat.add_comm _ _).trans hfill)
      (two_pow_dvd_rawM (fun _ => lev_toNat_lt hbpp ..) hz)
  · rw [outByte_of_bord_one hl, packL_toNat]
    exact ones_sub_div_two_pow hfill (rawL_toNat_lt (fun _ => lev_toNat_lt hbpp ..) hz)

end Sys2Proof.Machine
end

section
/-! O35, first part: a run comes to its next block step whatever the host does, short of reset. -/

namespace Sys2Proof.Machine

/-! ### States that steps lead to -/

/-- Some number of steps leads from `s` to `t`. -/
def Reaches (s t : State) : Prop := ∃ n, Host.Core.run core n s = .next t

theorem Reaches.refl (s : State) : Reaches s s := ⟨0, rfl⟩

theorem Reaches.trans {s t u : State} : Reaches s t → Reaches t u → Reaches s u
  | ⟨m, hm⟩, ⟨n, hn⟩ => ⟨m + n, (core_run_add m n hm).trans hn⟩

theorem Reaches.of_step {s t : State} (h : step s = .next t) : Reaches s t := ⟨1, core_run_one h⟩

/-! ### The host's operations that land before the next block step -/

/-- No reset is among the host's operations still to come. -/
def NoReset (s : State) : Prop := ∀ e ∈ s.pending, e.op ≠ .reset

theorem SameBlock.refl (s : State) : SameBlock s s := ⟨_, _, _, rfl⟩

theorem SameBlock.trans {s t u : State} : SameBlock s t → SameBlock t u → SameBlock s u
  | ⟨_, _, _, ht⟩, ⟨p, r, d, hu⟩ => ⟨p, r, d, by rw [hu, ht]⟩

theorem SameBlock.status {s t : State} (h : SameBlock s t) : t.status = s.status := by
  obtain ⟨_, _, _, rfl⟩ := h
  rfl

theorem sameBlock_takeHostOp (s : State) : SameBlock s (takeHostOp s) := ⟨_, _, _, rfl⟩

theorem sameBlock_passBlockStep (s : State) : SameBlock s (passBlockStep s) := ⟨_, _, _, rfl⟩

theorem op_mem_of_mem_waitLess {l : List HostEvent} {e : HostEvent} (h : e ∈ waitLess l) :
    ∃ e' ∈ l, e'.op = e.op := by
  cases l with
  | nil => cases h
  | cons a rest =>
    rcases List.mem_cons.mp h with rfl | h
    · exact ⟨a, List.mem_cons_self, rfl⟩
    · exact ⟨e, List.mem_cons_of_mem _ h, rfl⟩

theorem NoReset.waitLess {s t : State} (h : NoReset s) (hp : t.pending = waitLess s.pending) :
    NoReset t := by
  intro e he
  obtain ⟨e', he', hop⟩ := op_mem_of_mem_waitLess (hp ▸ he)
  exact hop ▸ h e' he'

/-- During a run every operation but POLL leaves the rest of the list as it is. -/
theorem landHostOp_busy_pending {s : State} {op : HostOp} (hb : s.status = .busy)
    (hpoll : op ≠ .poll) : (landHostOp op s).pending = s.pending := by
  cases op with
  | rd n => rfl
  | wr n v => rw [landHostOp, hostWriteReg_busy n v hb]
  | sw a v => rw [landHostOp, hostWriteSrc_busy a v hb]
  | lw a => rw [landHostOp, hostReadSrc_busy a hb]; rfl
  | lb k => rw [landHostOp, hostReadOut_busy k hb]; rfl
  | sb k v => rfl
  | poll => exact absurd rfl hpoll
  | reset => rfl

/-- The operations whose moment has come land one after the other, until a block step is next: each one
leaves the list, but for a POLL, which then waits for a block step. -/
theorem reaches_nextHostOp_none {s : State} (hb : s.status = .busy) (hr : NoReset s) :
    ∃ t, Reaches s t ∧ SameBlock s t ∧ NoReset t ∧ nextHostOp t = none := by
  induction hp : s.pending generalizing s with
  | nil => exact ⟨s, .refl s, .refl s, hr, by simp [nextHostOp, hp]⟩
  | cons e rest ih =>
    cases ho : nextHostOp s with
    | none => exact ⟨s, .refl s, .refl s, hr, ho⟩
    | some op =>
      obtain ⟨e', rest', hp', rfl, -⟩ := nextHostOp_some ho
      obtain ⟨rfl, rfl⟩ := List.cons.inj (hp'.symm.trans hp)
      have hrest : (takeHostOp s).pending = rest' := by rw [takeHostOp_pending, hp]; rfl
      have hr' : ∀ e ∈ rest', e.op ≠ .reset := fun e he => hr e (hp ▸ List.mem_cons_of_mem _ he)
      have hreach := Reaches.of_step (step_hostOp_busy hb ho)
      have hsame : SameBlock s (landHostOp e'.op (takeHostOp s)) :=
        (sameBlock_takeHostOp s).trans
          (landHostOp_busy_sameBlock hb (hr e' (hp ▸ List.mem_cons_self)))
      by_cases hpoll : e'.op = .poll
      · have hpend : (landHostOp e'.op (takeHostOp s)).pending = ⟨1, .poll⟩ :: rest' := by
          rw [hpoll, landHostOp, hostPoll_busy (s := takeHostOp s) hb, hrest]
        refine ⟨_, hreach, hsame, ?_, nextHostOp_waits (hsame.status.trans hb) ?_⟩
        · rw [NoReset, hpend]
          exact List.forall_mem_cons.mpr ⟨by decide, hr'⟩
        · intro e rest h
          rw [hpend] at h
          cases h
          decide
      · have hpend := (landHostOp_busy_pending (s := takeHostOp s) hb hpoll).trans hrest
        obtain ⟨t, ht, hst, hrt, hnt⟩ :=
          ih (hsame.status.trans hb) (by rwa [NoReset, hpend]) hpend
        exact ⟨t, hreach.trans ht, hsame.trans hst, hrt, hnt⟩

end Sys2Proof.Machine
end

section
/-! O35, second part: the stages of a run by the latched configuration, and the bounds that keep its
counters and addresses from overflowing (00_scope.md R8, 41_mapper.md R73). -/

namespace Sys2Proof.Machine

/-! ### The stage operations of an accepted configuration -/

/-- The coordinate of scan element `n` under the latched ROT (41_mapper.md R71, R72). -/
def Latch.coord (l : Latch) (n : Nat) : Nat × Nat :=
  if l.rot = 0 then coordN n l.w.toNat else coordR n l.w.toNat l.h.toNat

/-- The slot of pixel `i` of a chunk under the latched BORD (42_packer.md R79). -/
def Latch.fieldSlot (l : Latch) : Nat → Nat :=
  if l.bord = 0 then slotM l.bpp.toNat else slotL l.bpp.toNat

theorem srcAddr_coord (l : Latch) (n : Nat) : srcAddr l.w.toNat (l.coord n) = scanAddr l n := rfl

theorem exec_mapperRow {s : State} (hb : s.status = .busy) :
    exec (mapperRow s.latch.rot) s = .next (fetchPixel (s.latch.coord s.seq.toNat) s) := by
  unfold mapperRow Latch.coord
  split
  · exact whileBusy_busy hb
  · exact whileBusy_busy hb

theorem exec_quantiserRow {s : State} (hb : s.status = .busy)
    (h : s.latch.bpp = 1 ∨ s.latch.bpp = 2) :
    exec (quantiserRow s.latch.bpp) s = .next (setLevel (quant s.latch s.pixel) s) := by
  rcases h with h | h
  · rw [h, quant_of_bpp_one h]
    exact exec_qnt1_busy hb
  · rw [h, quant_of_bpp_two h]
    exact exec_qnt2_busy hb

theorem exec_packerRow {s : State} (hb : s.status = .busy)
    (h : s.latch.bord = 0 ∨ s.latch.bord = 1) :
    exec (packerRow s.latch.bord) s
      = .next (packAt (s.latch.fieldSlot s.chi.toNat) s) := by
  unfold Latch.fieldSlot
  rcases h with h | h
  · rw [h]
    exact whileBusy_busy hb
  · rw [h]
    exact whileBusy_busy hb

section
variable {s : State} (hn : nextHostOp s = none) (hb : s.status = .busy)
include hn hb

theorem step_of_map (hp : s.phase = .map) :
    step s = .next (fetchPixel (s.latch.coord s.seq.toNat) (passBlockStep s)) :=
  (step_stage hn hb (by rw [stageOp, hp]; rfl)).trans (exec_mapperRow (s := passBlockStep s) hb)

theorem step_of_quantise (hp : s.phase = .quantise) (h : s.latch.bpp = 1 ∨ s.latch.bpp = 2) :
    step s = .next (setLevel (quant s.latch s.pixel) (passBlockStep s)) :=
  (step_stage hn hb (by rw [stageOp, hp]; rfl)).trans (exec_quantiserRow (s := passBlockStep s) hb h)

theorem step_of_pack (hp : s.phase = .pack) (h : s.latch.bord = 0 ∨ s.latch.bord = 1) :
    step s = .next (packAt (s.latch.fieldSlot s.chi.toNat) (passBlockStep s)) :=
  (step_stage hn hb (by rw [stageOp, hp]; rfl)).trans (exec_packerRow (s := passBlockStep s) hb h)

theorem step_of_finish (hp : s.phase = .finish) : step s = .next (finishRun (passBlockStep s)) := by
  simp [step, hn, hb, stageOp, hp]

end

/-! ### Bounds on the scan: no counter and no address of a run overflows -/

theorem seqLen_le_mul (last : Nat) (l : Latch) : l.seqLen last ≤ l.w.toNat * l.h.toNat := by
  unfold Latch.seqLen seqLen
  split
  · exact Nat.mul_le_mul_right _ (Nat.sub_le _ _)
  · exact le_rfl

theorem width_mul_height_le (l : Latch) : l.w.toNat * l.h.toNat ≤ 1046529 :=
  Nat.mul_le_mul (Nat.le_of_lt_succ l.w.isLt) (Nat.le_of_lt_succ l.h.isLt)

theorem runLen_le (l : Latch) : l.runLen ≤ 1046529 :=
  (seqLen_le_mul _ l).trans (width_mul_height_le l)

theorem scanAddr_lt_mul {last n : Nat} {l : Latch} (h : n < l.seqLen last) :
    scanAddr l n < l.w.toNat * l.h.toNat := by
  by_cases hr : l.rot = 0
  · rw [scanAddr_nonRotated hr]
    exact h.trans_le (seqLen_le_mul last l)
  · have hpos : 0 < l.w.toNat * l.h.toNat := (Nat.zero_le n).trans_lt (h.trans_le (seqLen_le_mul last l))
    obtain ⟨hw, hh⟩ := CanonicallyOrderedAdd.mul_pos.mp hpos
    have hy : n % l.h.toNat < l.h.toNat := Nat.mod_lt n hh
    have hx : l.w.toNat - 1 - n / l.h.toNat < l.w.toNat :=
      (Nat.sub_le _ _).trans_lt (Nat.sub_one_lt hw.ne')
    calc scanAddr l n
        = n % l.h.toNat * l.w.toNat + (l.w.toNat - 1 - n / l.h.toNat) := by
          simp only [scanAddr, hr, if_false, coordR, srcAddr]
      _ < (n % l.h.toNat + 1) * l.w.toNat := by rw [Nat.succ_mul]; omega
      _ ≤ l.h.toNat * l.w.toNat := Nat.mul_le_mul_right _ hy
      _ = l.w.toNat * l.h.toNat := Nat.mul_comm _ _

theorem scanAddr_lt_srcSize {n : Nat} {l : Latch} (h : n < l.runLen) : scanAddr l n < srcSize :=
  (scanAddr_lt_mul h).trans_le ((width_mul_height_le l).trans (by decide))

theorem runBytes_le {l : Latch} (h : l.bpp = 1 ∨ l.bpp = 2) : l.runBytes ≤ 261633 := by
  have hbpp : l.bpp.toNat = 1 ∨ l.bpp.toNat = 2 := h.imp (congrArg _) (congrArg _)
  rw [Latch.runBytes, outLen_le_iff hbpp]
  have := runLen_le l
  rcases ppb_of_bpp h with hp | hp <;> omega

end Sys2Proof.Machine
end

section
/-! O35, third part: the relation of a run to the state START left, and that every stage keeps it. At the
end of the sequence it says that OUT begins with `EncodeCore` (43_control.md R89, R90). -/

namespace Sys2Proof.Machine

/-! ### The relation a run keeps -/

/-- The state without what a run works on: OUT, the counters, the model's own fields and the host's side.
The rest, the registers and SRC among it, is as START left it until the run completes. -/
def runFrame (s : State) : State :=
  { s with
    out := [], seq := 0, chi := 0, acc := 0, optr := 0, phase := .map, pixel := 0, level := 0
    draws := 0, pending := [], replies := [] }

/-- SRC as the function `EncodeCore` reads. -/
def srcWord (s : State) (a : Nat) : Word := (memRead s.src a).getD 0

/-- The levels of chunk `k` of the run that starts in `s`, 0 past the end of the scan. -/
def runChunk (s : State) (k i : Nat) : Level :=
  lev Config.rotLastX.val s.latch (srcWord s) (k * ppb s.latch.bpp.toNat + i)

/-- Byte `k` of what the run that starts in `s` writes. -/
def runByte (s : State) (k : Nat) : Byte := outByte Config.rotLastX.val s.latch (srcWord s) k

/-- `t` is a state of the run that START began in `s`, between two steps of the block: SEQ elements are
packed, in full bytes of OUT and a rest in ACC, and the pixel or the level of the next one is at hand in
the stage that uses it. -/
structure RunsFrom (s t : State) : Prop where
  frame : runFrame t = runFrame s
  seqLe : t.seq.toNat ≤ s.latch.runLen
  atEnd : t.phase = .finish ↔ s.latch.runLen ≤ t.seq.toNat
  chiIsRest : t.chi.toNat = t.seq.toNat % ppb s.latch.bpp.toNat
  optrIsQuotient : t.optr.toNat = t.seq.toNat / ppb s.latch.bpp.toNat
  pixelFetched : t.phase = .quantise → t.pixel = srcWord s (scanAddr s.latch t.seq.toNat)
  levelQuantised : t.phase = .pack → t.level = lev Config.rotLastX.val s.latch (srcWord s) t.seq.toNat
  accIsComposed : t.acc = composed s.latch.fieldSlot (runChunk s t.optr.toNat) t.chi.toNat
  outWritten : ∀ k, memRead t.out k = if k < t.optr.toNat then some (runByte s k) else memRead s.out k

/-- What the run that starts in `s` writes. -/
def runOutput (s : State) : List Byte := encodeCore Config.rotLastX.val s.latch (srcWord s)

theorem runOutput_length (s : State) : (runOutput s).length = s.latch.runBytes := by
  simp [runOutput, encodeCore, Latch.runBytes, Latch.runLen]

theorem runByte_of_runOutput {s : State} {k : Nat} {b : Byte} (h : (runOutput s)[k]? = some b) :
    k < s.latch.runBytes ∧ runByte s k = b := by
  obtain ⟨hk, hb⟩ := List.getElem?_eq_some_iff.mp h
  refine ⟨runOutput_length s ▸ hk, ?_⟩
  simpa [runOutput, encodeCore, runByte] using hb

theorem RunsFrom.status {s t : State} (h : RunsFrom s t) : t.status = s.status :=
  (congrArg State.status h.frame :)

theorem RunsFrom.latch {s t : State} (h : RunsFrom s t) : t.latch = s.latch :=
  (congrArg State.latch h.frame :)

theorem RunsFrom.src {s t : State} (h : RunsFrom s t) : t.src = s.src :=
  (congrArg State.src h.frame :)

theorem RunsFrom.seqInside {s t : State} (h : RunsFrom s t) (hp : t.phase ≠ .finish) :
    t.seq.toNat < s.latch.runLen := not_le.mp (mt h.atEnd.mpr hp)

/-- What the host does during a run keeps the relation. -/
theorem RunsFrom.of_sameBlock {s t u : State} (h : RunsFrom s t) (hu : SameBlock t u) :
    RunsFrom s u := by
  obtain ⟨p, r, d, rfl⟩ := hu
  exact { h with }

/-- A byte of the run is its chunk, composed and inverted, under either bit order. -/
theorem runByte_eq_invert_composed (s : State) (k : Nat) :
    runByte s k = invert (composed s.latch.fieldSlot (runChunk s k) (ppb s.latch.bpp.toNat)) := by
  unfold runByte outByte Latch.fieldSlot
  split
  · rfl
  · rfl

theorem phaseAt_eq_finish_iff (l : Latch) (n : Nat) : l.phaseAt n = .finish ↔ l.runLen ≤ n := by
  unfold Latch.phaseAt
  split
  · next h => exact iff_of_false nofun h.not_ge
  · next h => exact iff_of_true rfl (not_lt.mp h)

theorem phaseAt_ne_quantise (l : Latch) (n : Nat) : l.phaseAt n ≠ .quantise := by
  unfold Latch.phaseAt
  split <;> decide

theorem phaseAt_ne_pack (l : Latch) (n : Nat) : l.phaseAt n ≠ .pack := by
  unfold Latch.phaseAt
  split <;> decide

section
variable {s t : State}

/-- Between two elements the relation asks nothing of the pixel and the level. -/
theorem RunsFrom.of_phaseAt (hframe : runFrame t = runFrame s) (hseq : t.seq.toNat ≤ s.latch.runLen)
    (hphase : t.phase = s.latch.phaseAt t.seq.toNat)
    (hchi : t.chi.toNat = t.seq.toNat % ppb s.latch.bpp.toNat)
    (hoptr : t.optr.toNat = t.seq.toNat / ppb s.latch.bpp.toNat)
    (hacc : t.acc = composed s.latch.fieldSlot (runChunk s t.optr.toNat) t.chi.toNat)
    (hout : ∀ k, memRead t.out k
      = if k < t.optr.toNat then some (runByte s k) else memRead s.out k) : RunsFrom s t where
  frame := hframe
  seqLe := hseq
  atEnd := by rw [hphase, phaseAt_eq_finish_iff]
  chiIsRest := hchi
  optrIsQuotient := hoptr
  pixelFetched h := (phaseAt_ne_quantise _ _ (hphase.symm.trans h)).elim
  levelQuantised h := (phaseAt_ne_pack _ _ (hphase.symm.trans h)).elim
  accIsComposed := hacc
  outWritten := hout

/-- The state START leaves is the first of the run. -/
theorem RunsFrom.start (hseq : s.seq = 0) (hchi : s.chi = 0) (hacc : s.acc = 0) (hoptr : s.optr = 0)
    (hphase : s.phase = s.latch.phaseAt 0) : RunsFrom s s := by
  apply RunsFrom.of_phaseAt <;> simp [hseq, hchi, hacc, hoptr, hphase, composed]

/-- The fetch brings the word of element SEQ. -/
theorem RunsFrom.fetched (h : RunsFrom s t) (hload : SourceLoaded s s.latch)
    (hp : t.phase = .map) : RunsFrom s (fetchPixel (t.latch.coord t.seq.toNat) t) := by
  have hseq := h.seqInside (by rw [hp]; decide)
  have haddr : srcAddr t.latch.w.toNat (t.latch.coord t.seq.toNat) % srcSize
      = scanAddr s.latch t.seq.toNat := by
    rw [srcAddr_coord, h.latch, Nat.mod_eq_of_lt (scanAddr_lt_srcSize hseq)]
  obtain ⟨v, hv⟩ := Option.isSome_iff_exists.mp (hload _ hseq)
  rcases fetchPixel_cases (t.latch.coord t.seq.toNat) t with ⟨w, hw, e⟩ | ⟨hw, -⟩
  · rw [haddr, h.src] at hw
    rw [e]
    exact { h with
      atEnd := iff_of_false nofun hseq.not_ge
      pixelFetched := fun _ => by rw [srcWord, hw]; rfl
      levelQuantised := nofun }
  · rw [haddr, h.src, hv] at hw
    cases hw

/-- The quantiser gives the level of element SEQ. -/
theorem RunsFrom.quantised (h : RunsFrom s t) (hp : t.phase = .quantise) :
    RunsFrom s (setLevel (quant t.latch t.pixel) t) := by
  have hseq := h.seqInside (by rw [hp]; decide)
  exact { h with
    atEnd := iff_of_false nofun hseq.not_ge
    pixelFetched := nofun
    levelQuantised := fun _ => by
      rw [setLevel_level, setLevel_seq, h.latch, h.pixelFetched hp]
      exact (if_pos hseq).symm }

/-- With the level of element SEQ in its slot, ACC holds one element more of its chunk. -/
theorem RunsFrom.acc_or_placed (h : RunsFrom s t) (hp : t.phase = .pack) :
    t.acc ||| placed t.level (t.latch.fieldSlot t.chi.toNat)
      = composed s.latch.fieldSlot (runChunk s t.optr.toNat) (t.chi.toNat + 1) := by
  have hlevel : t.level = runChunk s t.optr.toNat t.chi.toNat := by
    rw [h.levelQuantised hp, runChunk, h.optrIsQuotient, h.chiIsRest, Nat.div_add_mod']
  rw [composed, ← h.accIsComposed, ← hlevel, h.latch]

/-! ### The packer: one more element, and the byte it fills -/

theorem RunsFrom.seq_succ (h : RunsFrom s t) (hp : t.phase ≠ .finish) :
    (t.seq + 1).toNat = t.seq.toNat + 1 := by
  have hseq := h.seqInside hp
  have hlen := runLen_le s.latch
  exact BitVec.toNat_add_of_lt (show t.seq.toNat + 1 < 2 ^ 20 by omega)

/-- OUT with the next byte of the run stored at OPTR. -/
theorem RunsFrom.memRead_memWrite_optr (h : RunsFrom s t) (k : Nat) :
    memRead (memWrite t.out t.optr.toNat (runByte s t.optr.toNat)) k
      = if k < t.optr.toNat + 1 then some (runByte s k) else memRead s.out k := by
  rw [memRead_memWrite, h.outWritten]
  rcases lt_trichotomy k t.optr.toNat with hk | rfl | hk
  · rw [if_neg hk.ne, if_pos hk, if_pos (hk.trans (Nat.lt_succ_self _))]
  · rw [if_pos rfl, if_pos (Nat.lt_succ_self _)]
  · rw [if_neg hk.ne', if_neg hk.not_gt, if_neg (Nat.succ_le_of_lt hk).not_gt]

/-- The next element stays in the byte, or ends it. -/
theorem succ_div_mod_of_ppb {p n : Nat} (hp : p = 8 ∨ p = 4) :
    (n % p = p - 1 → (n + 1) / p = n / p + 1 ∧ (n + 1) % p = 0) ∧
    (n % p ≠ p - 1 → (n + 1) / p = n / p ∧ (n + 1) % p = n % p + 1) := by
  rcases hp with rfl | rfl <;> omega

section
variable (haccepted : s.latch.refusal = 0)
include haccepted

theorem ppb_of_accepted : ppb s.latch.bpp.toNat = 8 ∨ ppb s.latch.bpp.toNat = 4 :=
  ppb_of_bpp (refusal_zero haccepted).1

theorem RunsFrom.optr_succ (h : RunsFrom s t) : (t.optr + 1).toNat = t.optr.toNat + 1 := by
  have hlt : t.optr.toNat + 1 < 2 ^ 18 := by
    have hseq := h.seqLe
    have hlen := runLen_le s.latch
    rw [h.optrIsQuotient]
    rcases ppb_of_accepted haccepted with hp | hp <;> rw [hp] <;> omega
  exact BitVec.toNat_add_of_lt hlt

theorem RunsFrom.chi_succ (h : RunsFrom s t) (hroom : t.chi.toNat ≠ ppb s.latch.bpp.toNat - 1) :
    (t.chi + 1).toNat = t.chi.toNat + 1 := by
  have hlt : t.chi.toNat + 1 < 2 ^ 3 := by
    rw [h.chiIsRest] at hroom ⊢
    rcases ppb_of_accepted haccepted with hp | hp <;> rw [hp] at hroom ⊢ <;> omega
  exact BitVec.toNat_add_of_lt hlt

/-- The packer places the level of element SEQ, and a full byte is the one `EncodeCore` has there. -/
theorem RunsFrom.packed (h : RunsFrom s t) (hp : t.phase = .pack) :
    RunsFrom s (packAt (t.latch.fieldSlot t.chi.toNat) t) := by
  have hne : t.phase ≠ .finish := by rw [hp]; decide
  have hseq := h.seq_succ hne
  have hle : (t.seq + 1).toNat ≤ s.latch.runLen := hseq ▸ h.seqInside hne
  have hphase : t.latch.phaseAt (t.seq + 1).toNat = s.latch.phaseAt (t.seq + 1).toNat := by
    rw [h.latch]
  obtain ⟨hfull, hroom⟩ := succ_div_mod_of_ppb (n := t.seq.toNat) (ppb_of_accepted haccepted)
  rw [← h.chiIsRest, ← h.optrIsQuotient, ← hseq] at hfull hroom
  have hoptr := h.optr_succ haccepted
  rcases packAt_cases (t.latch.fieldSlot t.chi.toNat) t with ⟨hc, e⟩ | ⟨hc, e⟩
  · rw [h.latch] at hc
    obtain ⟨hdiv, hmod⟩ := hfull hc
    have hlast : t.chi.toNat + 1 = ppb s.latch.bpp.toNat := by
      rcases ppb_of_accepted haccepted with hp | hp <;> omega
    have hbyte : invert (t.acc ||| placed t.level (t.latch.fieldSlot t.chi.toNat))
        = runByte s t.optr.toNat := by
      rw [h.acc_or_placed hp, hlast, runByte_eq_invert_composed]
    rw [e, hbyte]
    refine .of_phaseAt h.frame hle hphase hmod.symm (hoptr.trans hdiv.symm) rfl fun k => ?_
    rw [h.memRead_memWrite_optr, hoptr]
  · rw [h.latch] at hc
    obtain ⟨hdiv, hmod⟩ := hroom hc
    have hchi := h.chi_succ haccepted hc
    rw [e, h.acc_or_placed hp]
    exact .of_phaseAt h.frame hle hphase (hchi.trans hmod.symm) hdiv.symm (by rw [hchi]) h.outWritten

end
end

end Sys2Proof.Machine
end

section
/-! O35, fourth part: the run comes to its end and completes (43_control.md R90, R91). -/

namespace Sys2Proof.Machine

/-! ### Every block step but the last brings the end of the sequence nearer -/

@[simp] theorem fetchPixel_seq (xy : Nat × Nat) (s : State) : (fetchPixel xy s).seq = s.seq := by
  rcases fetchPixel_cases xy s with ⟨_, -, e⟩ | ⟨-, e⟩ <;> rw [e]

@[simp] theorem fetchPixel_phase (xy : Nat × Nat) (s : State) :
    (fetchPixel xy s).phase = .quantise := rfl

@[simp] theorem fetchPixel_pending (xy : Nat × Nat) (s : State) :
    (fetchPixel xy s).pending = s.pending := by
  rcases fetchPixel_cases xy s with ⟨_, -, e⟩ | ⟨-, e⟩ <;> rw [e]

@[simp] theorem packAt_seq (slot : Nat) (s : State) : (packAt slot s).seq = s.seq + 1 := by
  rcases packAt_cases slot s with ⟨-, e⟩ | ⟨-, e⟩ <;> rw [e]

@[simp] theorem packAt_pending (slot : Nat) (s : State) : (packAt slot s).pending = s.pending := by
  rcases packAt_cases slot s with ⟨-, e⟩ | ⟨-, e⟩ <;> rw [e]

/-- The stages of the current element that are behind. -/
def Phase.behind : Phase → Nat
  | .map => 0
  | .quantise => 1
  | .pack => 2
  | .finish => 0

/-- The stages to come before the completion of a run of `n` elements. -/
def stagesLeft (n : Nat) (s : State) : Nat := 3 * (n - s.seq.toNat) - s.phase.behind

theorem SameBlock.stagesLeft {s t : State} (h : SameBlock s t) (n : Nat) :
    stagesLeft n t = stagesLeft n s := by
  obtain ⟨_, _, _, rfl⟩ := h
  rfl

section
variable {s t : State} (hbusy : s.status = .busy) (haccepted : s.latch.refusal = 0)
  (hload : SourceLoaded s s.latch)
include hbusy haccepted hload

/-- A stage of the run keeps the relation and counts down. -/
theorem RunsFrom.block_step (h : RunsFrom s t) (hn : nextHostOp t = none) (hp : t.phase ≠ .finish) :
    ∃ u, step t = .next u ∧ RunsFrom s u ∧ u.pending = waitLess t.pending ∧
      stagesLeft s.latch.runLen u < stagesLeft s.latch.runLen t := by
  have hb : t.status = .busy := h.status.trans hbusy
  have hpass : RunsFrom s (passBlockStep t) := h.of_sameBlock (sameBlock_passBlockStep t)
  obtain ⟨hbpp, hbord⟩ := refusal_zero haccepted
  rw [← h.latch] at hbpp hbord
  have hseq := h.seqInside hp
  have hsucc := h.seq_succ hp
  cases hph : t.phase with
  | map =>
    refine ⟨_, step_of_map hn hb hph, hpass.fetched hload hph, fetchPixel_pending _ _, ?_⟩
    simp only [stagesLeft, fetchPixel_seq, fetchPixel_phase, passBlockStep_seq, hph, Phase.behind]
    omega
  | quantise =>
    refine ⟨_, step_of_quantise hn hb hph hbpp, hpass.quantised hph, rfl, ?_⟩
    simp only [stagesLeft, setLevel_seq, setLevel_phase, passBlockStep_seq, hph, Phase.behind]
    omega
  | pack =>
    refine ⟨_, step_of_pack hn hb hph hbord, hpass.packed haccepted hph, packAt_pending _ _, ?_⟩
    simp only [stagesLeft, packAt_seq, passBlockStep_seq, hsucc, hph, Phase.behind]
    omega
  | finish => exact absurd hph hp

/-- Whatever the host does, short of reset, the run comes to its last stage. -/
theorem RunsFrom.reaches_finish (h : RunsFrom s t) (hr : NoReset t) :
    ∃ u, Reaches t u ∧ RunsFrom s u ∧ nextHostOp u = none ∧ u.phase = .finish := by
  induction hm : stagesLeft s.latch.runLen t using Nat.strong_induction_on generalizing t with
  | _ m ih =>
    obtain ⟨t', hreach, hsame, hr', hn⟩ := reaches_nextHostOp_none (h.status.trans hbusy) hr
    have h' := h.of_sameBlock hsame
    by_cases hp : t'.phase = .finish
    · exact ⟨t', hreach, h', hn, hp⟩
    · obtain ⟨u, hstep, hu, hpend, hlt⟩ := h'.block_step hbusy haccepted hload hn hp
      rw [hsame.stagesLeft, hm] at hlt
      obtain ⟨v, hreach', hv⟩ := ih _ hlt hu (hr'.waitLess hpend) rfl
      exact ⟨v, hreach.trans ((Reaches.of_step hstep).trans hreach'), hv⟩

end

/-! ### The end of the run -/

theorem composed_of_zero {slot : Nat → Nat} {v : Nat → Level} {r n : Nat} (hrn : r ≤ n)
    (hz : ∀ i, r ≤ i → v i = 0) : composed slot v n = composed slot v r := by
  induction n, hrn using Nat.le_induction with
  | base => rfl
  | succ n hn ih => rw [composed, ih, hz n hn, placed_zero, show _ ||| (0 : Byte) = _ from BitVec.or_zero]

section
variable {s t : State}

/-- The flush and the completion change OUTLEN and STATUS alone of what a run leaves as it is. -/
theorem runFrame_finishRun (s : State) : runFrame (finishRun s)
    = { runFrame s with outlen := BitVec.ofNat 18 s.latch.runBytes, status := .done } := by
  rcases finishRun_cases s with ⟨-, e⟩ | ⟨-, e⟩ <;> rw [e] <;> rfl

/-- The rest in ACC, flushed, is the last byte of `EncodeCore`. -/
theorem RunsFrom.invert_acc (h : RunsFrom s t) (hp : t.phase = .finish)
    (hbpp : 0 < ppb s.latch.bpp.toNat) : invert t.acc = runByte s t.optr.toNat := by
  have hrest : t.chi.toNat ≤ ppb s.latch.bpp.toNat := by
    rw [h.chiIsRest]
    exact (Nat.mod_lt _ hbpp).le
  have hend : s.latch.runLen = t.optr.toNat * ppb s.latch.bpp.toNat + t.chi.toNat := by
    rw [h.optrIsQuotient, h.chiIsRest, Nat.div_add_mod']
    exact (h.atEnd.mp hp).antisymm h.seqLe
  have hz : ∀ i, t.chi.toNat ≤ i → runChunk s t.optr.toNat i = 0 := fun i hi =>
    lev_of_le (srcWord s) (show s.latch.runLen ≤ _ by omega)
  rw [h.accIsComposed, runByte_eq_invert_composed, composed_of_zero hrest hz]

/-- With all elements packed, the full bytes and a rest, if there is one, are the bytes of the run. -/
theorem RunsFrom.runBytes_eq (h : RunsFrom s t) (hp : t.phase = .finish)
    (haccepted : s.latch.refusal = 0) :
    s.latch.runBytes = if t.chi = 0 then t.optr.toNat else t.optr.toNat + 1 := by
  have hend : s.latch.runLen = t.seq.toNat := (h.atEnd.mp hp).antisymm h.seqLe
  have hchi : t.chi = 0 ↔ t.seq.toNat % ppb s.latch.bpp.toNat = 0 := by
    rw [← h.chiIsRest, BitVec.toNat_eq]
    rfl
  simp only [Latch.runBytes, outLen, hend, hchi, h.optrIsQuotient]
  rcases ppb_of_accepted haccepted with hp | hp <;> rw [hp] <;> split <;> omega

/-- After the completion OUT holds the bytes of the run and, above them, what it held. -/
theorem RunsFrom.memRead_out_finishRun (h : RunsFrom s t) (hp : t.phase = .finish)
    (haccepted : s.latch.refusal = 0) (k : Nat) : memRead (finishRun t).out k
      = if k < s.latch.runBytes then some (runByte s k) else memRead s.out k := by
  have hppb : 0 < ppb s.latch.bpp.toNat := by
    rcases ppb_of_accepted haccepted with hp | hp <;> omega
  rw [h.runBytes_eq hp haccepted]
  rcases finishRun_cases t with ⟨hc, e⟩ | ⟨hc, e⟩
  · rw [e, if_pos hc]
    exact h.outWritten k
  · rw [e, if_neg hc, h.invert_acc hp hppb, h.memRead_memWrite_optr]

end

/-! ### The START and its whole run -/

/-- BPP and BORD recognised and a supported geometry where it is checked: no cause applies. -/
theorem refusal_of_checks {l : Latch} (hb : l.bpp = 1 ∨ l.bpp = 2) (ho : l.bord = 0 ∨ l.bord = 1)
    (hg : Config.geomCheck = true → (l.w = 800 ∧ l.h = 480) ∨ (l.w = 480 ∧ l.h = 800)) :
    l.refusal = 0 := by
  cases hcheck : Config.geomCheck with
  | true =>
    exact refusal_of_supported hb ho (by simpa [supportedGeometry] using hg hcheck)
  | false =>
    simp only [Latch.refusal, Latch.causes, hcheck]
    rcases hb with hb | hb <;> rcases ho with ho | ho <;> simp [hb, ho]

/-- The state an accepted START leaves (43_control.md R88). -/
def startedRun (rot : BitVec 1) (bord bpp : BitVec 2) (s : State) : State :=
  { s with
    ctrl := ⟨rot, bord, bpp⟩, latch := latchOf rot bord bpp s, outlen := 0, err := 0, seq := 0
    chi := 0, acc := 0, optr := 0, status := .busy, phase := (latchOf rot bord bpp s).phaseAt 0 }

theorem exec_encode_accepted {rot : BitVec 1} {bord bpp : BitVec 2} {s : State}
    (hb : s.status ≠ .busy) (haccepted : (latchOf rot bord bpp s).refusal = 0) :
    exec (.encode rot bord bpp) s = .next (startedRun rot bord bpp s) := by
  rcases startRun_cases (latchConfig (storeCtrl rot bord bpp s)) with ⟨hr, -⟩ | ⟨-, e⟩
  · exact absurd haccepted hr
  · simp only [exec, execEncode, hb, if_false, e]
    rfl

theorem runsFrom_startedRun (rot : BitVec 1) (bord bpp : BitVec 2) (s : State) :
    RunsFrom (startedRun rot bord bpp s) (startedRun rot bord bpp s) := .start rfl rfl rfl rfl rfl

theorem runLen_latchOf (rot : BitVec 1) (bord bpp : BitVec 2) (s : State) :
    (latchOf rot bord bpp s).runLen
      = if rot = 0 then s.width.toNat * s.height.toNat
        else (s.width.toNat - Config.rotLastX.val) * s.height.toNat := by
  obtain rfl | rfl : rot = 0 ∨ rot = 1 := by revert rot; decide
  · rfl
  · rfl

/-- A run that has started completes, with the bytes of `EncodeCore` at the beginning of OUT. -/
theorem RunsFrom.completes {s t : State} (h : RunsFrom s t) (hr : NoReset t)
    (hbusy : s.status = .busy) (haccepted : s.latch.refusal = 0) (hload : SourceLoaded s s.latch) :
    ∃ u, Reaches t u ∧
      runFrame u
        = { runFrame s with outlen := BitVec.ofNat 18 s.latch.runBytes, status := .done } ∧
      (∀ k b, (runOutput s)[k]? = some b → memRead u.out k = some b) ∧
      ∀ k, (runOutput s).length ≤ k → memRead u.out k = memRead s.out k := by
  obtain ⟨u, hreach, hu, hn, hp⟩ := h.reaches_finish hbusy haccepted hload hr
  have hpass : RunsFrom s (passBlockStep u) := hu.of_sameBlock (sameBlock_passBlockStep u)
  have hstep := step_of_finish hn (hu.status.trans hbusy) hp
  have hout := hpass.memRead_out_finishRun hp haccepted
  refine ⟨_, hreach.trans (.of_step hstep), ?_, fun k b hk => ?_, fun k hk => ?_⟩
  · rw [runFrame_finishRun, hpass.frame, hpass.latch]
  · obtain ⟨hlt, rfl⟩ := runByte_of_runOutput hk
    rw [hout, if_pos hlt]
  · rw [hout, if_neg (runOutput_length s ▸ hk).not_gt]

/-- Settles O35: the START leaves the first state of the run, and the run completes. -/
theorem runWritesEncodeCore : Obligations.RunWritesEncodeCore := by
  intro rot bord bpp s hb hr hbpp hbord hgeom hload
  have haccepted : (latchOf rot bord bpp s).refusal = 0 := refusal_of_checks hbpp hbord hgeom
  obtain ⟨t, ⟨n, hrun⟩, hframe, hbytes, hrest⟩ :=
    (runsFrom_startedRun rot bord bpp s).completes hr rfl haccepted hload
  have hlen : t.outlen.toNat = (latchOf rot bord bpp s).runBytes := by
    have hlt : (latchOf rot bord bpp s).runBytes < 2 ^ 18 := (runBytes_le hbpp).trans_lt (by decide)
    rw [show t.outlen = BitVec.ofNat 18 _ from (congrArg State.outlen hframe :)]
    exact Nat.mod_eq_of_lt hlt
  refine ⟨n, _, t, runOutput (startedRun rot bord bpp s), exec_encode_accepted hb haccepted, rfl, hrun,
    rfl, (congrArg State.status hframe :), (congrArg State.err hframe :),
    hlen.trans (runOutput_length (startedRun rot bord bpp s)).symm, ?_, hbytes, hrest,
    (congrArg State.src hframe :), (congrArg State.ctrl hframe :), (congrArg State.width hframe :),
    (congrArg State.height hframe :), (congrArg State.thr1 hframe :), (congrArg State.thr2 hframe :)⟩
  rw [hlen, Latch.runBytes, outLen, runLen_latchOf]
  rfl

end Sys2Proof.Machine
end

section
/-! O44, O45, O46: the host's register and memory operations (43_control.md R93 to R95). -/

namespace Sys2Proof.Machine

/-! ### What lands, and what it does -/

/-- A host operation that issues no instruction has its own effect when it lands. -/
theorem step_of_nextHostOp {s : State} {op : HostOp} (ho : nextHostOp s = some op)
    (hi : issuedBy op = none) : step s = .next (landHostOp op (takeHostOp s)) := by
  simp only [step, ho, hi]

theorem issuedBy_wr_of_ne_zero {n : Nat} (h : n ≠ 0) (v : Word) : issuedBy (.wr n v) = none := by
  cases n with
  | zero => exact absurd rfl h
  | succ n => rfl

/-! ### Register reads -/

/-- A field with zeros above it is the field widened. -/
theorem zero_append_eq_setWidth {w : Nat} (n : Nat) (x : BitVec w) :
    0#n ++ x = x.setWidth (n + w) := by
  rw [← BitVec.setWidth_eq (0#n ++ x), BitVec.setWidth_append_eq_shiftLeft_setWidth_or]
  simp

theorem readReg_ctrl (s : State) :
    readReg s 0 = 0#26 ++ s.ctrl.bpp ++ s.ctrl.bord ++ s.ctrl.rot ++ 0#1 := by
  have hfields : ∀ (rot : BitVec 1) (bord bpp : BitVec 2),
      rot.setWidth 32 <<< 1 ||| bord.setWidth 32 <<< 2 ||| bpp.setWidth 32 <<< 4
        = 0#26 ++ bpp ++ bord ++ rot ++ 0#1 := by decide
  exact hfields ..

theorem readReg_thr2 (s : State) :
    readReg s 6 = 0#8 ++ s.thr2.t2 ++ s.thr2.t1 ++ s.thr2.t0 := by
  rw [← BitVec.setWidth_eq (0#8 ++ s.thr2.t2 ++ s.thr2.t1 ++ s.thr2.t0),
    BitVec.setWidth_append_append_append_eq_shiftLeft_setWidth_or]
  simp [readReg, BitVec.or_comm, BitVec.or_assoc]

theorem readReg_unmapped (s : State) {n : Nat} (h : 8 ≤ n) : readReg s n = 0 := by
  obtain ⟨m, rfl⟩ := Nat.exists_eq_add_of_le' h
  rfl

/-- Settles O44: a register read replies `readReg`, whose value at each number stands above. -/
theorem registerReadReturnsTheFields : Obligations.RegisterReadReturnsTheFields := by
  intro s n ho
  have hstatus : ∀ r, n = 1 → s.status = r → readReg s n = r.code.setWidth 32 := by
    rintro _ rfl rfl
    rfl
  refine ⟨readReg s n, step_of_nextHostOp ho rfl, ?_, hstatus .idle, hstatus .busy, hstatus .done,
    hstatus .error, ?_, ?_, ?_, ?_, ?_, ?_, readReg_unmapped s⟩ <;> rintro rfl
  · exact readReg_ctrl s
  · exact (zero_append_eq_setWidth 29 s.err).symm
  · exact (zero_append_eq_setWidth 22 s.width).symm
  · exact (zero_append_eq_setWidth 22 s.height).symm
  · exact (zero_append_eq_setWidth 24 s.thr1).symm
  · exact readReg_thr2 s
  · exact (zero_append_eq_setWidth 14 s.outlen).symm

/-! ### Register writes -/

theorem hostWriteReg_of_not_busy {s : State} (n : Nat) (v : Word) (hb : s.status ≠ .busy) :
    hostWriteReg n v s = writeReg n v s := if_neg hb

/-- Outside a run a register write that is not ENCODE stores its fields. -/
theorem step_wr_of_not_busy {s : State} {n : Nat} {v : Word} (ho : nextHostOp s = some (.wr n v))
    (hi : issuedBy (.wr n v) = none) (hb : s.status ≠ .busy) :
    step s = .next (writeReg n v (takeHostOp s)) := by
  rw [step_of_nextHostOp ho hi, landHostOp, hostWriteReg_of_not_busy (s := takeHostOp s) n v hb]

/-- A write of CTRL with START set runs ENCODE with the fields of the word. -/
theorem step_wr_of_start {s : State} {v : Word} (ho : nextHostOp s = some (.wr 0 v))
    (hv : cwStart v = true) :
    step s = exec (.encode (cwRot v) (cwBord v) (cwBpp v)) (takeHostOp s) := by
  have hi : issuedBy (.wr 0 v) = some (.encode (cwRot v) (cwBord v) (cwBpp v)) :=
    commandOf_of_start hv
  simp only [step, ho, hi]

theorem startRun_ctrl (s : State) : (startRun s).ctrl = s.ctrl := by
  rcases startRun_cases s with ⟨-, e⟩ | ⟨-, e⟩
  · rw [e, raiseConfigError_ctrl]
  · rw [e]

/-- ENCODE outside a run stores its qualifiers, whether it is refused or starts a run. -/
theorem exec_encode_ctrl {rot : BitVec 1} {bord bpp : BitVec 2} {s : State}
    (hb : s.status ≠ .busy) :
    ∃ t, exec (.encode rot bord bpp) s = .next t ∧ t.ctrl = ⟨rot, bord, bpp⟩ := by
  refine ⟨startRun (latchConfig (storeCtrl rot bord bpp s)), ?_, startRun_ctrl _⟩
  simp only [exec, execEncode, hb, if_false]

theorem writeReg_thr2 (v : Word) (s : State) :
    writeReg 6 v s = { s with thr2 := ⟨chan0 v, chan1 v, chan2 v⟩ } := rfl

theorem writeReg_readOnly {n : Nat} (h : n = 1 ∨ n = 2 ∨ 7 ≤ n) (v : Word) (s : State) :
    writeReg n v s = s := by
  rcases h with rfl | rfl | h
  · rfl
  · rfl
  · obtain ⟨m, rfl⟩ := Nat.exists_eq_add_of_le' h
    rfl

/-- Settles O45: the block is BUSY, the write is ENCODE, or it stores the fields of its register. -/
theorem registerWriteStoresTheFields : Obligations.RegisterWriteStoresTheFields := by
  intro s n v ho
  refine ⟨fun hb => ?_, fun hb => ?_⟩
  · rw [step_hostOp_busy hb ho, landHostOp, hostWriteReg_busy (s := takeHostOp s) n v hb]
  have hstore (hn : n ≠ 0) := step_wr_of_not_busy ho (issuedBy_wr_of_ne_zero hn v) hb
  refine ⟨?_, ?_, ?_, ?_, ?_, ?_, fun hn => ?_⟩
  · rintro rfl hv
    exact step_wr_of_not_busy ho (commandOf_of_not_start (by rw [cwStart, hv]; decide)) hb
  · rintro rfl hv
    have hstep := step_wr_of_start ho hv
    obtain ⟨t, ht, hctrl⟩ := exec_encode_ctrl (s := takeHostOp s) hb
    exact ⟨hstep, t, hstep.trans ht, hctrl⟩
  · rintro rfl
    rw [hstore (by decide), BitVec.ofNat_toNat]
    rfl
  · rintro rfl
    rw [hstore (by decide), BitVec.ofNat_toNat]
    rfl
  · rintro rfl
    rw [hstore (by decide), BitVec.ofNat_toNat]
    rfl
  · rintro rfl
    rw [hstore (by decide), writeReg_thr2, chan0_eq_ofNat, chan1_eq_ofNat, chan2_eq_ofNat]
  · rw [hstore (by omega), writeReg_readOnly hn]

/-! ### SRC and OUT -/

theorem hostWriteSrc_of_not_busy {s : State} (a : SrcIndex) (v : Word) (hb : s.status ≠ .busy) :
    hostWriteSrc a v s = writeSrc a v s := if_neg hb

theorem hostReadSrc_of_not_busy {s : State} (a : SrcIndex) (hb : s.status ≠ .busy) :
    hostReadSrc a s = reply (.src a (readSrc a s).1) (readSrc a s).2 := by
  simp only [hostReadSrc, hb, if_false]

theorem hostReadOut_of_not_busy {s : State} (k : OutIndex) (hb : s.status ≠ .busy) :
    hostReadOut k s = reply (.out k (readOut k s).1) (readOut k s).2 := by
  simp only [hostReadOut, hb, if_false]

theorem readSrc_of_some {a : SrcIndex} {s : State} {v : Word} (h : memRead s.src a.toNat = some v) :
    readSrc a s = (v, s) := by
  simp only [readSrc, h]

theorem readSrc_of_none {a : SrcIndex} {s : State} (h : memRead s.src a.toNat = none) :
    readSrc a s = drawWord s := by
  simp only [readSrc, h]

theorem readOut_of_some {k : OutIndex} {s : State} {v : Byte} (h : memRead s.out k.toNat = some v) :
    readOut k s = (v, s) := by
  simp only [readOut, h]

theorem readOut_of_none {k : OutIndex} {s : State} (h : memRead s.out k.toNat = none) :
    readOut k s = drawByte s := by
  simp only [readOut, h]

/-- A host read of SRC that finds no value, or comes during a run, draws a free one. -/
theorem hostReadSrc_draws {a : SrcIndex} {s : State}
    (h : s.status = .busy ∨ memRead s.src a.toNat = none) :
    hostReadSrc a s = reply (.src a (drawWord s).1) (drawWord s).2 := by
  by_cases hb : s.status = .busy
  · exact hostReadSrc_busy a hb
  · rw [hostReadSrc_of_not_busy a hb, readSrc_of_none (h.resolve_left hb)]

/-- A host read of OUT that finds no value, or comes during a run, draws a free one. -/
theorem hostReadOut_draws {k : OutIndex} {s : State}
    (h : s.status = .busy ∨ memRead s.out k.toNat = none) :
    hostReadOut k s = reply (.out k (drawByte s).1) (drawByte s).2 := by
  by_cases hb : s.status = .busy
  · exact hostReadOut_busy k hb
  · rw [hostReadOut_of_not_busy k hb, readOut_of_none (h.resolve_left hb)]

/-- Settles O46: each of SW, LW and LB lands by its own lemma, on the state without the operation. -/
theorem hostMemoryOperations : Obligations.HostMemoryOperations := by
  refine fun s => ⟨fun a v ho => ⟨fun hb => ?_, fun hb => ?_⟩,
    fun a ho => ⟨fun v hb hv => ?_, fun h => ?_⟩, fun k ho => ⟨fun v hb hv => ?_, fun h => ?_⟩⟩ <;>
    have hstep := step_of_nextHostOp ho rfl
  · exact hstep.trans (congrArg _ (hostWriteSrc_busy (s := takeHostOp s) a v hb))
  · exact ⟨_, hstep.trans (congrArg _ (hostWriteSrc_of_not_busy (s := takeHostOp s) a v hb)),
      memRead_memWrite_same .., fun b hba => memRead_memWrite_other _ v hba⟩
  · rw [hstep, landHostOp, hostReadSrc_of_not_busy (s := takeHostOp s) a hb,
      readSrc_of_some (s := takeHostOp s) hv]
    rfl
  · exact ⟨_, _, hstep.trans (congrArg _ (hostReadSrc_draws (s := takeHostOp s) h))⟩
  · rw [hstep, landHostOp, hostReadOut_of_not_busy (s := takeHostOp s) k hb,
      readOut_of_some (s := takeHostOp s) hv]
    rfl
  · exact ⟨_, _, hstep.trans (congrArg _ (hostReadOut_draws (s := takeHostOp s) h))⟩

end Sys2Proof.Machine
end

section
/-! O9: the causes that an accepted START leaves in ERR, and the STATE beside them (60_exceptions.md R99
to R102). -/

namespace Sys2Proof.Machine

/-! ### The causes, bit by bit -/

theorem getLsbD_ite_zero {n : Nat} {p : Prop} [Decidable p] (e : BitVec n) (i : Nat) :
    (if p then e else 0).getLsbD i = true ↔ p ∧ e.getLsbD i = true := by
  split <;> simp [*]

theorem supportedGeometry_eq_true_iff {w h : BitVec 10} :
    supportedGeometry w h = true ↔ (w = 800 ∧ h = 480) ∨ (w = 480 ∧ h = 800) := by
  simp only [supportedGeometry, Bool.or_eq_true, Bool.and_eq_true, beq_iff_eq]

theorem eBpp_getLsbD (i : Nat) : eBpp.getLsbD i = true ↔ i = 0 := by
  simp [show eBpp = BitVec.twoPow 3 0 from rfl, eq_comm]

theorem eBord_getLsbD (i : Nat) : eBord.getLsbD i = true ↔ i = 1 := by
  simp [show eBord = BitVec.twoPow 3 1 from rfl, eq_comm]

theorem eGeom_getLsbD (i : Nat) : eGeom.getLsbD i = true ↔ i = 2 := by
  simp [show eGeom = BitVec.twoPow 3 2 from rfl, eq_comm]

/-- Each cause has a bit of its own in the refusal, set whatever the other causes are (R102). -/
theorem refusal_getLsbD (l : Latch) (i : Nat) :
    l.refusal.getLsbD i = true ↔
      (l.bpp = 0 ∨ l.bpp = 3) ∧ i = 0 ∨
      (l.bord = 2 ∨ l.bord = 3) ∧ i = 1 ∨
      (Config.geomCheck = true ∧ ¬ ((l.w = 800 ∧ l.h = 480) ∨ (l.w = 480 ∧ l.h = 800))) ∧ i = 2 := by
  have hgeom : (!supportedGeometry l.w l.h && Config.geomCheck) = true ↔
      Config.geomCheck = true ∧ ¬ ((l.w = 800 ∧ l.h = 480) ∨ (l.w = 480 ∧ l.h = 800)) := by
    rw [← supportedGeometry_eq_true_iff, Bool.and_eq_true, Bool.not_eq_true', Bool.not_eq_true,
      and_comm]
  simp only [Latch.refusal, Latch.causes, BitVec.getLsbD_or, Bool.or_eq_true, getLsbD_ite_zero,
    eBpp_getLsbD, eBord_getLsbD, eGeom_getLsbD, hgeom, or_assoc]

/-! ### ERR and STATE after the START -/

/-- Refused or not, the START leaves the causes of the latched configuration in ERR. -/
theorem startRun_err (s : State) : (startRun s).err = s.latch.refusal := by
  rcases startRun_cases s with ⟨-, e⟩ | ⟨hr, e⟩
  · rw [e, raiseConfigError_err]
  · rw [e, hr]

theorem startRun_status (s : State) :
    (startRun s).status = if s.latch.refusal = 0 then .busy else .error := by
  rcases startRun_cases s with ⟨hr, e⟩ | ⟨hr, e⟩
  · rw [e, raiseConfigError_status, if_neg hr]
  · rw [e, if_pos hr]

/-- ENCODE outside a run reports the causes of what it latches. -/
theorem exec_encode_err {rot : BitVec 1} {bord bpp : BitVec 2} {s : State} (hb : s.status ≠ .busy) :
    ∃ t, exec (.encode rot bord bpp) s = .next t ∧ t.err = (latchOf rot bord bpp s).refusal ∧
      t.status = if t.err = 0 then .busy else .error := by
  have herr := startRun_err (latchConfig (storeCtrl rot bord bpp s))
  refine ⟨startRun (latchConfig (storeCtrl rot bord bpp s)), ?_, herr, ?_⟩
  · simp only [exec, execEncode, hb, if_false]
  · rw [herr, startRun_status]

/-- Settles O9: ERR is the refusal of the latch, which has one bit for each cause. -/
theorem errHoldsExactlyTheCauses : Obligations.ErrHoldsExactlyTheCauses := by
  intro rot bord bpp s hb
  obtain ⟨t, ht, herr, hstatus⟩ := exec_encode_err (rot := rot) (bord := bord) (bpp := bpp) hb
  refine ⟨t, ht, ?_, ?_, ?_, fun h => hstatus.trans (if_neg h), fun h => hstatus.trans (if_pos h)⟩ <;>
    rw [herr, refusal_getLsbD] <;> simp [latchOf]

end Sys2Proof.Machine
end

section
/-! O38: a run comes to its end whatever it reads and whatever the host does, short of reset
(70_reset_and_hazards.md R124). -/

namespace Sys2Proof.Machine

/-! ### What every stage of a run leaves as it is -/

@[simp] theorem fetchPixel_status (xy : Nat × Nat) (s : State) :
    (fetchPixel xy s).status = s.status := by
  rcases fetchPixel_cases xy s with ⟨_, -, e⟩ | ⟨-, e⟩ <;> rw [e]

@[simp] theorem fetchPixel_latch (xy : Nat × Nat) (s : State) :
    (fetchPixel xy s).latch = s.latch := by
  rcases fetchPixel_cases xy s with ⟨_, -, e⟩ | ⟨-, e⟩ <;> rw [e]

@[simp] theorem packAt_status (slot : Nat) (s : State) : (packAt slot s).status = s.status := by
  rcases packAt_cases slot s with ⟨-, e⟩ | ⟨-, e⟩ <;> rw [e]

@[simp] theorem packAt_latch (slot : Nat) (s : State) : (packAt slot s).latch = s.latch := by
  rcases packAt_cases slot s with ⟨-, e⟩ | ⟨-, e⟩ <;> rw [e]

@[simp] theorem packAt_phase (slot : Nat) (s : State) :
    (packAt slot s).phase = s.latch.phaseAt (s.seq + 1).toNat := by
  rcases packAt_cases slot s with ⟨-, e⟩ | ⟨-, e⟩ <;> rw [e]

@[simp] theorem finishRun_status (s : State) : (finishRun s).status = .done := rfl

@[simp] theorem finishRun_pending (s : State) : (finishRun s).pending = s.pending := by
  rcases finishRun_cases s with ⟨-, e⟩ | ⟨-, e⟩ <;> rw [e]

/-! ### The part of the invariant that carries a run to its end -/

/-- The block is BUSY with a configuration that passed its checks, and before the last stage an element
is left. Unlike `RunsFrom`, this asks nothing of SRC: a fetch may draw a free word (R116). -/
structure Scanning (s : State) : Prop where
  busy : s.status = .busy
  accepted : s.latch.refusal = 0
  seqInside : s.phase ≠ .finish → s.seq.toNat < s.latch.runLen

theorem Scanning.of_inv {s : State} (hi : Inv s) (hb : s.status = .busy) : Scanning s where
  busy := hb
  accepted := (hi.running hb).accepted
  seqInside := (hi.running hb).seqInside

theorem Scanning.of_sameBlock {s t : State} (h : Scanning s) (hst : SameBlock s t) : Scanning t := by
  obtain ⟨_, _, _, rfl⟩ := hst
  exact { h with }

theorem seq_succ_toNat {s : State} (h : s.seq.toNat < s.latch.runLen) :
    (s.seq + 1).toNat = s.seq.toNat + 1 := by
  have hlen := runLen_le s.latch
  exact BitVec.toNat_add_of_lt (show s.seq.toNat + 1 < 2 ^ 20 by omega)

/-- The stages to come before the completion of the run in progress. -/
def runStagesLeft (s : State) : Nat := stagesLeft s.latch.runLen s

theorem SameBlock.runStagesLeft {s t : State} (h : SameBlock s t) :
    runStagesLeft t = runStagesLeft s := by
  obtain ⟨_, _, _, rfl⟩ := h
  rfl

/-- A stage before the last brings the run a stage nearer its end. -/
theorem Scanning.block_step {s : State} (h : Scanning s) (hn : nextHostOp s = none)
    (hp : s.phase ≠ .finish) :
    ∃ t, step s = .next t ∧ Scanning t ∧ t.pending = waitLess s.pending ∧
      runStagesLeft t < runStagesLeft s := by
  obtain ⟨hbpp, hbord⟩ := refusal_zero h.accepted
  have hseq := h.seqInside hp
  cases hph : s.phase with
  | map =>
    refine ⟨_, step_of_map hn h.busy hph, ⟨?_, ?_, fun _ => ?_⟩, fetchPixel_pending _ _, ?_⟩
    · rw [fetchPixel_status, passBlockStep_status, h.busy]
    · rw [fetchPixel_latch, passBlockStep_latch, h.accepted]
    · rwa [fetchPixel_seq, fetchPixel_latch]
    · simp only [runStagesLeft, stagesLeft, Phase.behind, fetchPixel_latch, fetchPixel_seq,
        fetchPixel_phase, passBlockStep_latch, passBlockStep_seq, hph]
      omega
  | quantise =>
    refine ⟨_, step_of_quantise hn h.busy hph hbpp, ⟨h.busy, h.accepted, fun _ => hseq⟩, rfl, ?_⟩
    simp only [runStagesLeft, stagesLeft, Phase.behind, setLevel_latch, setLevel_seq, setLevel_phase,
      passBlockStep_latch, passBlockStep_seq, hph]
    omega
  | pack =>
    refine ⟨_, step_of_pack hn h.busy hph hbord, ⟨?_, ?_, fun hne => ?_⟩, packAt_pending _ _, ?_⟩
    · rw [packAt_status, passBlockStep_status, h.busy]
    · rw [packAt_latch, passBlockStep_latch, h.accepted]
    · rw [packAt_phase, ne_eq, phaseAt_eq_finish_iff, not_le] at hne
      rwa [packAt_seq, packAt_latch]
    · simp only [runStagesLeft, stagesLeft, Phase.behind, packAt_latch, packAt_seq,
        passBlockStep_latch, passBlockStep_seq, seq_succ_toNat hseq, hph]
      omega
  | finish => exact absurd hph hp

/-! ### Host sides under which a run goes on -/

/-- A property of the host's pending operations under which the block always comes to its next step, and
which is kept until then and by that step. -/
structure HostYields (K : List HostEvent → Prop) : Prop where
  yields : ∀ {s : State}, s.status = .busy → K s.pending →
    ∃ t, Reaches s t ∧ SameBlock s t ∧ K t.pending ∧ nextHostOp t = none
  passed : ∀ {l : List HostEvent}, K l → K (waitLess l)

theorem hostYields_noReset : HostYields fun l => ∀ e ∈ l, e.op ≠ .reset where
  yields := reaches_nextHostOp_none
  passed h e he := by
    obtain ⟨e', he', hop⟩ := op_mem_of_mem_waitLess he
    exact hop ▸ h e' he'

/-- The oldest pending operation is a POLL, and `rest` comes after it. -/
def PollThen (rest l : List HostEvent) : Prop := ∃ wait, l = ⟨wait, .poll⟩ :: rest

/-- A POLL that lands during a run stays the oldest operation, so the operations after it, whatever they
are, do not land before the run is over. -/
theorem hostYields_pollThen (rest : List HostEvent) : HostYields (PollThen rest) where
  yields {s} hb h := by
    obtain ⟨wait, hp⟩ := h
    cases ho : nextHostOp s with
    | none => exact ⟨s, .refl s, .refl s, ⟨wait, hp⟩, ho⟩
    | some op =>
      have hop : op = .poll := by
        obtain ⟨e, rest', hp', rfl, -⟩ := nextHostOp_some ho
        obtain ⟨rfl, -⟩ := List.cons.inj (hp'.symm.trans hp)
        rfl
      subst hop
      have hstep := step_hostOp_busy hb ho
      rw [landHostOp, hostPoll_busy (s := takeHostOp s) hb, takeHostOp_eq hp] at hstep
      refine ⟨_, .of_step hstep, ⟨_, _, _, rfl⟩, ⟨1, rfl⟩, nextHostOp_waits hb ?_⟩
      rintro e l ⟨⟩
      decide
  passed := by
    rintro _ ⟨wait, rfl⟩
    exact ⟨wait - 1, rfl⟩

/-! ### The end of the run, and of the POLL -/

section
variable {K : List HostEvent → Prop} (hK : HostYields K) {s : State} (h : Scanning s)
  (hs : K s.pending)
include hK h hs

theorem Scanning.reaches_finish :
    ∃ t, Reaches s t ∧ Scanning t ∧ K t.pending ∧ nextHostOp t = none ∧ t.phase = .finish := by
  induction hm : runStagesLeft s using Nat.strong_induction_on generalizing s with
  | _ m ih =>
    obtain ⟨t, hst, hsame, ht, hn⟩ := hK.yields h.busy hs
    have hscan := h.of_sameBlock hsame
    by_cases hp : t.phase = .finish
    · exact ⟨t, hst, hscan, ht, hn, hp⟩
    · obtain ⟨u, hstep, hu, hpend, hlt⟩ := hscan.block_step hn hp
      rw [hsame.runStagesLeft, hm] at hlt
      obtain ⟨v, huv, hv⟩ := ih _ hlt hu (hpend ▸ hK.passed ht) rfl
      exact ⟨v, hst.trans ((Reaches.of_step hstep).trans huv), hv⟩

theorem Scanning.reaches_done : ∃ t, Reaches s t ∧ t.status = .done ∧ K t.pending := by
  obtain ⟨t, hst, ht, hpend, hn, hp⟩ := h.reaches_finish hK hs
  refine ⟨_, hst.trans (.of_step (step_of_finish hn ht.busy hp)), finishRun_status _, ?_⟩
  rw [finishRun_pending]
  exact hK.passed hpend

end

/-- A POLL of a block that is DONE is over, and returns the code of DONE. -/
theorem step_poll_of_done {s : State} {rest : List HostEvent} (hd : s.status = .done)
    (hp : PollThen rest s.pending) :
    step s = .next { s with pending := rest, replies := .reg 1 2 :: s.replies } := by
  obtain ⟨wait, hp⟩ := hp
  rw [step_hostOp hp (by simp [hd]) rfl]
  simp [landHostOp, hostPoll, hostReadReg, reply, readReg, RunState.code, hd]

/-- Settles O38: the run comes to DONE under a host without reset, and under a host that polls, whose
POLL then ends with the code of DONE. -/
theorem everyRunReachesDone : Obligations.EveryRunReachesDone := by
  intro s hi hb hr
  have hscan := Scanning.of_inv hi hb
  refine ⟨?_, fun wait rest hp => ?_⟩
  · obtain ⟨t, ⟨n, hrun⟩, hd, -⟩ := hscan.reaches_done hostYields_noReset hr
    exact ⟨n, t, hrun, hd⟩
  · obtain ⟨t, hst, hd, hpoll⟩ := hscan.reaches_done (hostYields_pollThen rest) ⟨wait, hp⟩
    obtain ⟨n, hrun⟩ := hst.trans (.of_step (step_poll_of_done hd hpoll))
    exact ⟨n, _, 2, t.replies, hrun, rfl, rfl, by decide⟩

end Sys2Proof.Machine
end

section
/-! O2, O3, O4: the fields of a control word go out to rows and back (30_encoding.md R48 to R54). -/

namespace Sys2Proof

open Sys2Proof.Machine

/-! ### The rows of each slot are those its field names -/

theorem exists_quantiserRow {i : Instr} (h : i.slot = .quantiser) : ∃ bpp, quantiserRow bpp = i := by
  cases i <;> cases h <;> decide

theorem exists_mapperRow {i : Instr} (h : i.slot = .mapper) : ∃ rot, mapperRow rot = i := by
  cases i <;> cases h <;> decide

theorem exists_packerRow {i : Instr} (h : i.slot = .packer) : ∃ bord, packerRow bord = i := by
  cases i <;> cases h <;> decide

theorem quantiserRow_slot (bpp : BitVec 2) : (quantiserRow bpp).slot = .quantiser := by
  revert bpp; decide

theorem mapperRow_slot (rot : BitVec 1) : (mapperRow rot).slot = .mapper := by
  revert rot; decide

theorem packerRow_slot (bord : BitVec 2) : (packerRow bord).slot = .packer := by
  revert bord; decide

theorem rowOf_slot (sl : Slot) (cw : Word) : (rowOf sl cw).slot = sl := by
  cases sl with
  | command => rfl
  | quantiser => exact quantiserRow_slot _
  | mapper => exact mapperRow_slot _
  | packer => exact packerRow_slot _

/-! ### The word of a row is its code, placed in the slot's field -/

theorem encodeRow_quantiserRow (bpp : BitVec 2) : encodeRow (quantiserRow bpp) = placeField 4 bpp := by
  revert bpp; decide

theorem encodeRow_mapperRow (rot : BitVec 1) : encodeRow (mapperRow rot) = placeField 1 rot := by
  revert rot; decide

theorem encodeRow_packerRow (bord : BitVec 2) : encodeRow (packerRow bord) = placeField 2 bord := by
  revert bord; decide

/-- The control word whose slots hold the rows of the given fields. -/
def fieldRows (start : Bool) (rot : BitVec 1) (bord bpp : BitVec 2) : ControlWord :=
  ⟨start, quantiserRow bpp, mapperRow rot, packerRow bord⟩

theorem encodeControl_fieldRows (start : Bool) (rot : BitVec 1) (bord bpp : BitVec 2) :
    encodeControl (fieldRows start rot bord bpp)
      = (BitVec.ofBool start).setWidth 32 ||| placeField 4 bpp ||| placeField 1 rot
        ||| placeField 2 bord := by
  simp only [encodeControl, fieldRows, encodeRow_quantiserRow, encodeRow_mapperRow,
    encodeRow_packerRow]

theorem decodeControl_encodeControl_fieldRows :
    ∀ (start : Bool) (rot : BitVec 1) (bord bpp : BitVec 2),
      decodeControl (encodeControl (fieldRows start rot bord bpp)) = fieldRows start rot bord bpp := by
  decide

theorem ControlWord.exists_fieldRows {c : ControlWord} (h : c.wf = true) :
    ∃ start rot bord bpp, fieldRows start rot bord bpp = c := by
  obtain ⟨start, q, m, p⟩ := c
  simp only [ControlWord.wf, Bool.and_eq_true, decide_eq_true_eq] at h
  obtain ⟨⟨hq, hm⟩, hp⟩ := h
  obtain ⟨bpp, rfl⟩ := exists_quantiserRow hq
  obtain ⟨rot, rfl⟩ := exists_mapperRow hm
  obtain ⟨bord, rfl⟩ := exists_packerRow hp
  exact ⟨start, rot, bord, bpp, rfl⟩

theorem decodeSlot_encodeRow (i : Instr) : decodeSlot i.slot (encodeRow i) = some i := by
  cases i with
  | encode rot bord bpp => revert rot bord bpp; decide
  | qnt1 | qnt2 | mapn | mapr | pckm | pckl | rsvBpp0 | rsvBpp3 | rsvBord2 | rsvBord3 => decide

/-- The four fields make up the low six bits. -/
theorem encodeControl_decodeControl (cw : Word) :
    encodeControl (decodeControl cw) = cw &&& 0x0000003F := by
  have hmask : (0x0000003F : Word) = 0x00000001 ||| placeField 4 (BitVec.allOnes 2)
      ||| placeField 1 (BitVec.allOnes 1) ||| placeField 2 (BitVec.allOnes 2) := by decide
  have hstart : cw &&& 0x00000001 = (BitVec.ofBool (cwStart cw)).setWidth 32 :=
    BitVec.and_one_eq_setWidth_ofBool_getLsbD
  rw [hmask, BitVec.and_or_distrib_left, BitVec.and_or_distrib_left, BitVec.and_or_distrib_left,
    and_placeField_allOnes, and_placeField_allOnes, and_placeField_allOnes, hstart]
  exact encodeControl_fieldRows ..

/-- Settles O2: a well-formed control word holds the rows of some fields, and placing the fields and
cutting them out again gives them back. -/
theorem encodeAndDecodeAgree : Obligations.EncodeAndDecodeAgree := by
  refine ⟨fun c hc => ?_, decodeSlot_encodeRow, encodeControl_decodeControl⟩
  obtain ⟨start, rot, bord, bpp, rfl⟩ := ControlWord.exists_fieldRows hc
  exact decodeControl_encodeControl_fieldRows ..

/-! ### The reserved bits -/

theorem cwStart_and_fields (cw : Word) : cwStart (cw &&& 0x0000003F) = cwStart cw := by
  simp [cwStart]

theorem cwRot_and_fields (cw : Word) : cwRot (cw &&& 0x0000003F) = cwRot cw :=
  extractLsb'_and_of_allOnes (by decide) cw

theorem cwBord_and_fields (cw : Word) : cwBord (cw &&& 0x0000003F) = cwBord cw :=
  extractLsb'_and_of_allOnes (by decide) cw

theorem cwBpp_and_fields (cw : Word) : cwBpp (cw &&& 0x0000003F) = cwBpp cw :=
  extractLsb'_and_of_allOnes (by decide) cw

theorem rowOf_and_fields (sl : Slot) (cw : Word) : rowOf sl (cw &&& 0x0000003F) = rowOf sl cw := by
  cases sl <;> simp only [rowOf, cwRot_and_fields, cwBord_and_fields, cwBpp_and_fields]

theorem decodeSlot_and_fields (sl : Slot) (cw : Word) :
    decodeSlot sl (cw &&& 0x0000003F) = decodeSlot sl cw := by
  cases sl with
  | command => simp only [decodeSlot, commandOf, cwStart_and_fields, rowOf_and_fields]
  | quantiser | mapper | packer => exact congrArg some (rowOf_and_fields _ cw)

/-- Settles O3: each field of a word survives the mask of the low six bits, and a slot's field always
names a row of the slot. -/
theorem reservedControlBitsAreIgnored : Obligations.ReservedControlBitsAreIgnored := by
  refine ⟨fun cw sl => (decodeSlot_and_fields sl cw).symm, fun cw s => ?_, by decide, fun cw sl h =>
    ⟨_, decodeSlot_of_ne_command cw h, rowOf_slot sl cw⟩⟩
  simp only [writeReg, cwRot_and_fields, cwBord_and_fields, cwBpp_and_fields]

/-- Settles O4: closed words, decoded. -/
theorem writtenOutWordsDecode : Obligations.WrittenOutWordsDecode := by
  unfold Obligations.WrittenOutWordsDecode
  decide

end Sys2Proof
end

section
/-! O5, O6: what a step issues, and that nothing stops the machine (43_control.md R88, R90, R92;
60_exceptions.md R98). -/

namespace Sys2Proof.Machine

theorem step_next (s : State) : ∃ t, step s = .next t := by
  rcases step_cases s with ⟨_, i, -, -, e⟩ | ⟨_, -, -, e⟩ | ⟨i, -, -, -, e⟩ | ⟨-, -, -, e⟩ | ⟨-, -, e⟩
  · exact e ▸ exec_next i _
  · exact ⟨_, e⟩
  · exact e ▸ exec_next i _
  · exact ⟨_, e⟩
  · exact ⟨_, e⟩

/-- Settles O6: the five things a step can be, and every arm of `exec`, answer a next state. -/
theorem everyStepAnswersANextState : Obligations.EveryStepAnswersANextState := ⟨step_next, exec_next⟩

theorem step_of_nothing {s : State} (hn : nextHostOp s = none) (hb : s.status ≠ .busy) :
    step s = .next s := by
  simp [step, hn, hb]

theorem nextHostOp_of_nil {s : State} (hp : s.pending = []) : nextHostOp s = none := by
  simp [nextHostOp, hp]

/-- Settles O5: what the host or the stage issues, read off `issuedBy` and `stageOp`. -/
theorem stepRunsTheSelectedInstruction : Obligations.StepRunsTheSelectedInstruction := by
  refine fun s => ⟨fun wait v rest hp hw hv => ?_, fun hb hp => ?_, fun hp hb =>
    step_of_nothing (nextHostOp_of_nil hp) hb⟩
  · rw [step_wr_of_start (nextHostOp_lands hp hw) hv, takeHostOp_eq hp]
    rfl
  · have hn := nextHostOp_waits hb hp
    have hquant (b : BitVec 2) (hp : s.phase = .quantise) (h : s.latch.bpp = b) :
        step s = exec (quantiserRow b) (passBlockStep s) :=
      step_stage hn hb (by rw [stageOp, hp, h])
    have hpack (b : BitVec 2) (hp : s.phase = .pack) (h : s.latch.bord = b) :
        step s = exec (packerRow b) (passBlockStep s) :=
      step_stage hn hb (by rw [stageOp, hp, h])
    exact ⟨fun hp => step_stage hn hb (by rw [stageOp, hp]; rfl), hquant 0, hquant 1, hquant 2,
      hquant 3, hpack 0, hpack 1, hpack 2, hpack 3, step_of_finish hn hb⟩

end Sys2Proof.Machine
end

section
/-! O33, O31, O32: what the instructions leave as it is, the order of the stages, and that the stages need a
run (20_memory.md R36, R44; 43_control.md R90). -/

namespace Sys2Proof.Machine

/-! ### The frame of the slots' operations -/

/-- The state without what the operations of the slots and the completion of a run change: what is left is
the host's registers, SRC, the latch and the host's side. -/
def slotFrame (s : State) : State :=
  { s with
    status := .idle, err := 0, outlen := 0, out := [], seq := 0, chi := 0, acc := 0, optr := 0
    phase := .map, pixel := 0, level := 0, draws := 0 }

/-- A slot's operation keeps `slotFrame`, and OUT but for the byte at OPTR. -/
structure KeepsSlotFrame (s t : State) : Prop where
  frame : slotFrame t = slotFrame s
  outBeside : ∀ k, k ≠ s.optr.toNat → memRead t.out k = memRead s.out k

theorem KeepsSlotFrame.refl (s : State) : KeepsSlotFrame s s := ⟨rfl, fun _ _ => rfl⟩

theorem fetchPixel_out (xy : Nat × Nat) (s : State) : (fetchPixel xy s).out = s.out := by
  rcases fetchPixel_cases xy s with ⟨_, -, e⟩ | ⟨-, e⟩ <;> rw [e]

theorem keepsSlotFrame_fetchPixel (xy : Nat × Nat) (s : State) :
    KeepsSlotFrame s (fetchPixel xy s) := by
  rcases fetchPixel_cases xy s with ⟨_, -, e⟩ | ⟨-, e⟩ <;> rw [e] <;> exact ⟨rfl, fun _ _ => rfl⟩

theorem keepsSlotFrame_packAt (slot : Nat) (s : State) : KeepsSlotFrame s (packAt slot s) := by
  rcases packAt_cases slot s with ⟨-, e⟩ | ⟨-, e⟩ <;> rw [e]
  · exact ⟨rfl, fun k hk => memRead_memWrite_other s.out _ hk⟩
  · exact ⟨rfl, fun _ _ => rfl⟩

theorem keepsSlotFrame_finishRun (s : State) : KeepsSlotFrame s (finishRun s) := by
  rcases finishRun_cases s with ⟨-, e⟩ | ⟨-, e⟩ <;> rw [e]
  · exact ⟨rfl, fun _ _ => rfl⟩
  · exact ⟨rfl, fun k hk => memRead_memWrite_other s.out _ hk⟩

/-- A stage operation has a property that its effect has and that doing nothing has. -/
theorem exists_whileBusy {f : State → State} {s : State} {P : State → Prop} (hf : P (f s)) (hs : P s) :
    ∃ t, whileBusy f s = .next t ∧ P t := by
  by_cases hb : s.status = .busy
  · exact ⟨f s, whileBusy_busy hb, hf⟩
  · exact ⟨s, whileBusy_not_busy hb, hs⟩

/-- Every row but ENCODE keeps the frame of the slots, and only the packer's two rows write OUT. -/
theorem exec_keepsSlotFrame {i : Instr} (hi : i.slot ≠ .command) (s : State) :
    ∃ t, exec i s = .next t ∧ KeepsSlotFrame s t ∧ (i ≠ .pckm → i ≠ .pckl → t.out = s.out) := by
  have hrefl : KeepsSlotFrame s s := .refl s
  cases i with
  | encode => exact absurd rfl hi
  | qnt1 | qnt2 => exact exists_whileBusy ⟨⟨rfl, fun _ _ => rfl⟩, fun _ _ => rfl⟩ ⟨hrefl, fun _ _ => rfl⟩
  | mapn | mapr =>
    exact exists_whileBusy ⟨keepsSlotFrame_fetchPixel _ s, fun _ _ => fetchPixel_out _ s⟩
      ⟨hrefl, fun _ _ => rfl⟩
  | pckm =>
    exact exists_whileBusy ⟨keepsSlotFrame_packAt _ s, fun h => absurd rfl h⟩ ⟨hrefl, fun _ _ => rfl⟩
  | pckl =>
    exact exists_whileBusy ⟨keepsSlotFrame_packAt _ s, fun _ h => absurd rfl h⟩ ⟨hrefl, fun _ _ => rfl⟩
  | rsvBpp0 | rsvBpp3 | rsvBord2 | rsvBord3 =>
    exact ⟨_, rfl, ⟨rfl, fun _ _ => rfl⟩, fun _ _ => rfl⟩

/-! ### The frame of every row -/

theorem exec_encode_of_not_busy {rot : BitVec 1} {bord bpp : BitVec 2} {s : State}
    (hb : s.status ≠ .busy) :
    exec (.encode rot bord bpp) s = .next (startRun (latchConfig (storeCtrl rot bord bpp s))) := by
  simp only [exec, execEncode, hb, if_false]

/-- Beyond what the slots' operations change, ENCODE changes CTRL and the latch, and it does not write
OUT. -/
theorem exec_encode_frame (rot : BitVec 1) (bord bpp : BitVec 2) (s : State) :
    ∃ (t : State) (c : Ctrl) (l : Latch), exec (.encode rot bord bpp) s = .next t ∧
      slotFrame t = { slotFrame s with ctrl := c, latch := l } ∧ t.out = s.out := by
  by_cases hb : s.status = .busy
  · exact ⟨s, _, _, exec_encode_busy _ _ _ hb, rfl, rfl⟩
  · rw [exec_encode_of_not_busy hb]
    rcases startRun_cases (latchConfig (storeCtrl rot bord bpp s)) with ⟨-, e⟩ | ⟨-, e⟩ <;> rw [e]
    · exact ⟨_, _, _, rfl, rfl, rfl⟩
    · exact ⟨_, _, _, rfl, rfl, rfl⟩

theorem exec_frame (i : Instr) (s : State) :
    ∃ (t : State) (c : Ctrl) (l : Latch), exec i s = .next t ∧
      slotFrame t = { slotFrame s with ctrl := c, latch := l } ∧
      (i.slot ≠ .command → c = s.ctrl ∧ l = s.latch) ∧
      (i ≠ .pckm → i ≠ .pckl → t.out = s.out) ∧
      ∀ k, k ≠ s.optr.toNat → memRead t.out k = memRead s.out k := by
  by_cases hi : i.slot = .command
  · obtain ⟨rot, bord, bpp, rfl⟩ : ∃ rot bord bpp, i = .encode rot bord bpp := by
      cases i with
      | encode rot bord bpp => exact ⟨rot, bord, bpp, rfl⟩
      | _ => cases hi
    obtain ⟨t, c, l, ht, hf, hout⟩ := exec_encode_frame rot bord bpp s
    exact ⟨t, c, l, ht, hf, fun h => absurd hi h, fun _ _ => hout, fun k _ => by rw [hout]⟩
  · obtain ⟨t, ht, ⟨hf, hbeside⟩, hout⟩ := exec_keepsSlotFrame hi s
    exact ⟨t, s.ctrl, s.latch, ht, hf, fun _ => ⟨rfl, rfl⟩, hout, hbeside⟩

/-- Settles O33: the fields of the frame, one by one. -/
theorem instructionsLeaveTheRestAlone : Obligations.InstructionsLeaveTheRestAlone := by
  intro i s
  obtain ⟨t, c, l, ht, hf, hconfig, hout, hbeside⟩ := exec_frame i s
  have hctrl : t.ctrl = c := (congrArg State.ctrl hf :)
  have hlatch : t.latch = l := (congrArg State.latch hf :)
  exact ⟨t, ht, (congrArg State.src hf :), (congrArg State.width hf :), (congrArg State.height hf :),
    (congrArg State.thr1 hf :), (congrArg State.thr2 hf :), (congrArg State.pending hf :),
    (congrArg State.replies hf :),
    fun hi => ⟨hctrl.trans (hconfig hi).1, hlatch.trans (hconfig hi).2⟩, hout, hbeside⟩

/-! ### The stages in and outside a run -/

theorem phaseAt_of_lt {l : Latch} {n : Nat} (h : n < l.runLen) : l.phaseAt n = .map := if_pos h

/-- Settles O31: the stage each operation leaves. -/
theorem stagesFollowTheReferenceOrder : Obligations.StagesFollowTheReferenceOrder := by
  have hpack (slot : Nat) (s : State) : (packAt slot s).seq = s.seq + 1 ∧
      ((packAt slot s).seq.toNat < s.latch.runLen → (packAt slot s).phase = .map) ∧
      (s.latch.runLen ≤ (packAt slot s).seq.toNat → (packAt slot s).phase = .finish) := by
    rw [packAt_phase, packAt_seq]
    exact ⟨rfl, phaseAt_of_lt, (phaseAt_eq_finish_iff _ _).mpr⟩
  refine fun s hb => ⟨?_, ?_, ?_⟩ <;> rintro i (rfl | rfl)
  · exact ⟨_, whileBusy_busy hb, fetchPixel_phase _ s⟩
  · exact ⟨_, whileBusy_busy hb, fetchPixel_phase _ s⟩
  · exact ⟨_, whileBusy_busy hb, setLevel_phase _ s⟩
  · exact ⟨_, whileBusy_busy hb, setLevel_phase _ s⟩
  · exact ⟨_, whileBusy_busy hb, hpack _ s⟩
  · exact ⟨_, whileBusy_busy hb, hpack _ s⟩

/-- Settles O32: every stage operation is a `whileBusy`. -/
theorem stageOperationsNeedARun : Obligations.StageOperationsNeedARun := by
  rintro s hb i (rfl | rfl | rfl | rfl | rfl | rfl) <;> exact whileBusy_not_busy hb

end Sys2Proof.Machine
end

section
/-! O42: a run keeps its configuration, SRC and the host's registers (10_state.md R22, 20_memory.md R44,
R45). -/

namespace Sys2Proof.Machine

theorem stageOp_slot {s : State} {i : Instr} (h : stageOp s = some i) : i.slot ≠ .command := by
  unfold stageOp at h
  split at h <;> cases h
  · rw [mapperRow_slot]; decide
  · rw [quantiserRow_slot]; decide
  · rw [packerRow_slot]; decide

/-- A step of the block, not of the host, keeps the frame of the slots but for the host's wait. -/
theorem step_slotFrame {s t : State} (hn : nextHostOp s = none) (h : step s = .next t) :
    slotFrame t = slotFrame { s with pending := t.pending } := by
  rcases step_cases s with ⟨_, _, ho, -⟩ | ⟨_, ho, -⟩ | ⟨i, -, -, hi, e⟩ | ⟨-, -, -, e⟩ | ⟨-, -, e⟩
  · cases hn.symm.trans ho
  · cases hn.symm.trans ho
  · obtain ⟨u, hu, hkeeps, -⟩ := exec_keepsSlotFrame (stageOp_slot hi) (passBlockStep s)
    cases h.symm.trans (e.trans hu)
    have hp : t.pending = (passBlockStep s).pending := (congrArg State.pending hkeeps.frame :)
    rw [hkeeps.frame, hp]
    rfl
  · cases h.symm.trans e
    rw [(keepsSlotFrame_finishRun (passBlockStep s)).frame, finishRun_pending]
    rfl
  · cases h.symm.trans e
    rfl

/-- Settles O42: a host operation that lands leaves the block alone, and a stage keeps the frame of the
slots. -/
theorem configurationHoldsForTheRun : Obligations.ConfigurationHoldsForTheRun := by
  intro s hb hr
  cases ho : nextHostOp s with
  | some op =>
    obtain ⟨_, _, _, e⟩ := landHostOp_busy_sameBlock (s := takeHostOp s) hb fun h => hr (h ▸ ho)
    exact ⟨_, step_hostOp_busy hb ho, by rw [e]; exact ⟨rfl, rfl, rfl, rfl, rfl, rfl, rfl⟩⟩
  | none =>
    obtain ⟨t, ht⟩ := step_next s
    have hf := step_slotFrame ho ht
    exact ⟨t, ht, (congrArg State.latch hf :), (congrArg State.src hf :), (congrArg State.ctrl hf :),
      (congrArg State.width hf :), (congrArg State.height hf :), (congrArg State.thr1 hf :),
      (congrArg State.thr2 hf :)⟩

end Sys2Proof.Machine
end

section
/-! O39, O40, O41: the invariant holds after reset and every step keeps it; STATE and SEQ move by the table
(10_state.md sections 2 and 8, 43_control.md R90 to R92). -/

namespace Sys2Proof

open Sys2Proof.Machine

/-! ### The invariant, by the value of STATE -/

theorem Inv.err_eq_zero {s : State} (h : Inv s) (hs : s.status ≠ .error) : s.err = 0 :=
  not_ne_iff.mp (mt h.errExactlyInError.mp hs)

section
variable {s : State} (hsrc : Memory.wf srcSize s.src) (hout : Memory.wf outSize s.out)
include hsrc hout

theorem Inv.of_idle (hs : s.status = .idle) (herr : s.err = 0) (hlen : s.outlen = 0) : Inv s := by
  refine ⟨hsrc, hout, ?_, ?_, ?_, ?_, ?_, ?_⟩ <;> simp_all

theorem Inv.of_error (hs : s.status = .error) (herr : s.err ≠ 0) (hlen : s.outlen = 0) : Inv s := by
  refine ⟨hsrc, hout, ?_, ?_, ?_, ?_, ?_, ?_⟩ <;> simp_all

theorem Inv.of_busy (hs : s.status = .busy) (herr : s.err = 0) (hlen : s.outlen = 0)
    (hrun : RunInv s) : Inv s := by
  refine ⟨hsrc, hout, ?_, ?_, ?_, ?_, ?_, ?_⟩ <;> simp_all

theorem Inv.of_done (hs : s.status = .done) (herr : s.err = 0) (haccepted : s.latch.refusal = 0)
    (hlen : s.outlen.toNat = s.latch.runBytes)
    (hlisted : ∀ k, k < s.outlen.toNat → (memRead s.out k).isSome = true) : Inv s := by
  refine ⟨hsrc, hout, ?_, ?_, ?_, ?_, ?_, ?_⟩ <;> simp_all

end

/-- Settles O39: the state after reset is idle with no cause and no length. -/
theorem resetMeetsTheInvariant : Obligations.ResetMeetsTheInvariant :=
  Inv.of_idle reset_wf.1 reset_wf.2 rfl rfl rfl

theorem inv_resetBlock (s : State) : Inv (resetBlock s) :=
  .of_idle reset_wf.1 reset_wf.2 rfl rfl rfl

/-! ### What the host's operations keep -/

/-- The state without the host's registers, SRC, the count of free values and the host's side. -/
def runPart (s : State) : State :=
  { s with
    ctrl := ⟨0, 0, 0⟩, width := 0, height := 0, thr1 := 0, thr2 := ⟨0, 0, 0⟩, src := [], draws := 0
    pending := [], replies := [] }

/-- `t` has what `s` has of a run and of its results, and a canonical SRC if `s` has. -/
structure KeepsRun (s t : State) : Prop where
  part : runPart t = runPart s
  srcCanonical : Memory.wf srcSize s.src → Memory.wf srcSize t.src

theorem KeepsRun.refl (s : State) : KeepsRun s s := ⟨rfl, id⟩

theorem KeepsRun.trans {s t u : State} (h : KeepsRun s t) (h' : KeepsRun t u) : KeepsRun s u :=
  ⟨h'.part.trans h.part, h'.srcCanonical ∘ h.srcCanonical⟩

theorem KeepsRun.status {s t : State} (h : KeepsRun s t) : t.status = s.status :=
  (congrArg State.status h.part :)

theorem KeepsRun.seq {s t : State} (h : KeepsRun s t) : t.seq = s.seq :=
  (congrArg State.seq h.part :)

theorem KeepsRun.of_sameBlock {s t : State} (h : SameBlock s t) : KeepsRun s t := by
  obtain ⟨_, _, _, rfl⟩ := h
  exact ⟨rfl, id⟩

/-- The invariant sees the run's part of the state and whether SRC is canonical, nothing else. -/
theorem Inv.of_keepsRun {s t : State} (h : Inv s) (hst : KeepsRun s t) : Inv t := by
  have hpart : Inv (runPart s) :=
    { h with srcCanonical := reset_wf.1, running := fun hb => { h.running hb with } }
  rw [← hst.part] at hpart
  exact { hpart with
    srcCanonical := hst.srcCanonical h.srcCanonical
    running := fun hb => { hpart.running hb with } }

theorem keepsRun_writeReg (n : Nat) (v : Word) (s : State) : KeepsRun s (writeReg n v s) := by
  unfold writeReg
  split <;> exact ⟨rfl, id⟩

theorem keepsRun_readSrc (a : SrcIndex) (s : State) : KeepsRun s (readSrc a s).2 := by
  rcases readSrc_cases a s with ⟨_, -, e⟩ | ⟨-, e⟩ <;> rw [e] <;> exact ⟨rfl, id⟩

theorem keepsRun_readOut (k : OutIndex) (s : State) : KeepsRun s (readOut k s).2 := by
  rcases readOut_cases k s with ⟨_, -, e⟩ | ⟨-, e⟩ <;> rw [e] <;> exact ⟨rfl, id⟩

theorem keepsRun_reply (r : Reply) (s : State) : KeepsRun s (reply r s) := ⟨rfl, id⟩

theorem hostPoll_of_not_busy {s : State} (hb : s.status ≠ .busy) : hostPoll s = hostReadReg 1 s :=
  if_neg hb

/-- Outside a run no host operation but reset and ENCODE changes the results of the last run or moves
STATE (43_control.md R92 to R95). -/
theorem keepsRun_landHostOp {s : State} {op : HostOp} (hb : s.status ≠ .busy) (hr : op ≠ .reset) :
    KeepsRun s (landHostOp op s) := by
  cases op with
  | rd n => exact keepsRun_reply _ s
  | wr n v => rw [landHostOp, hostWriteReg_of_not_busy n v hb]; exact keepsRun_writeReg n v s
  | sw a v => rw [landHostOp, hostWriteSrc_of_not_busy a v hb]; exact ⟨rfl, writeSrc_wf⟩
  | lw a =>
    rw [landHostOp, hostReadSrc_of_not_busy a hb]
    exact (keepsRun_readSrc a s).trans (keepsRun_reply _ _)
  | lb k =>
    rw [landHostOp, hostReadOut_of_not_busy k hb]
    exact (keepsRun_readOut k s).trans (keepsRun_reply _ _)
  | sb k v => exact .refl s
  | poll => rw [landHostOp, hostPoll_of_not_busy hb]; exact keepsRun_reply _ s
  | reset => exact absurd rfl hr

/-! ### The START -/

theorem RunInv.of_start {s : State} (haccepted : s.latch.refusal = 0) (hseq : s.seq = 0)
    (hchi : s.chi = 0) (hoptr : s.optr = 0) (hphase : s.phase = s.latch.phaseAt 0) : RunInv s where
  accepted := haccepted
  seqInside h := by
    rw [hphase, ne_eq, phaseAt_eq_finish_iff, not_le] at h
    simpa [hseq] using h
  seqAtEnd h := by
    rw [hphase, phaseAt_eq_finish_iff, Nat.le_zero] at h
    simp [hseq, h]
  chiIsRest := by simp [hchi, hseq]
  optrIsQuotient := by simp [hoptr, hseq]
  levelFits h := (phaseAt_ne_pack _ _ (hphase.symm.trans h)).elim
  outListed k hk := by simp [hoptr] at hk

theorem inv_startRun {s : State} (hsrc : Memory.wf srcSize s.src) (hout : Memory.wf outSize s.out) :
    Inv (startRun s) := by
  rcases startRun_cases s with ⟨hr, e⟩ | ⟨hr, e⟩ <;> rw [e]
  · exact .of_error hsrc hout rfl hr rfl
  · exact .of_busy hsrc hout rfl rfl rfl (.of_start hr rfl rfl rfl rfl)

theorem inv_exec_encode {rot : BitVec 1} {bord bpp : BitVec 2} {s t : State} (h : Inv s)
    (ht : exec (.encode rot bord bpp) s = .next t) : Inv t := by
  by_cases hb : s.status = .busy
  · cases ht.symm.trans (exec_encode_busy rot bord bpp hb)
    exact h
  · cases ht.symm.trans (exec_encode_of_not_busy hb)
    exact inv_startRun h.srcCanonical h.outCanonical

/-! ### The stages of a run -/

section
variable {s : State} (h : RunInv s)
include h

theorem RunInv.fetched (hp : s.phase = .map) (xy : Nat × Nat) : RunInv (fetchPixel xy s) := by
  have hseq := h.seqInside (by rw [hp]; decide)
  rcases fetchPixel_cases xy s with ⟨_, -, e⟩ | ⟨-, e⟩ <;> rw [e] <;>
    exact { h with seqInside := fun _ => hseq, seqAtEnd := nofun, levelFits := nofun }

theorem RunInv.quantised (hp : s.phase = .quantise) :
    RunInv (setLevel (quant s.latch s.pixel) s) := by
  have hbpp : s.latch.bpp.toNat = 1 ∨ s.latch.bpp.toNat = 2 :=
    (refusal_zero h.accepted).1.imp (congrArg _) (congrArg _)
  exact { h with
    seqInside := fun _ => h.seqInside (by rw [hp]; decide)
    seqAtEnd := nofun
    levelFits := fun _ => quant_toNat_lt hbpp s.pixel }

theorem RunInv.optr_succ (hp : s.phase ≠ .finish) : (s.optr + 1).toNat = s.optr.toNat + 1 := by
  have hlt : s.optr.toNat + 1 < 2 ^ 18 := by
    have hseq := h.seqInside hp
    have hlen := runLen_le s.latch
    rw [h.optrIsQuotient]
    rcases ppb_of_accepted h.accepted with hp | hp <;> rw [hp] <;> omega
  exact BitVec.toNat_add_of_lt hlt

theorem RunInv.chi_succ (hroom : s.chi.toNat ≠ ppb s.latch.bpp.toNat - 1) :
    (s.chi + 1).toNat = s.chi.toNat + 1 := by
  have hlt : s.chi.toNat + 1 < 2 ^ 3 := by
    rw [h.chiIsRest] at hroom ⊢
    rcases ppb_of_accepted h.accepted with hp | hp <;> rw [hp] at hroom ⊢ <;> omega
  exact BitVec.toNat_add_of_lt hlt

/-- OUT with a byte stored at OPTR is written below OPTR + 1. -/
theorem RunInv.isSome_memRead_memWrite_optr (v : Byte) {k : Nat} (hk : k < s.optr.toNat + 1) :
    (memRead (memWrite s.out s.optr.toNat v) k).isSome = true := by
  rw [memRead_memWrite]
  split
  · rfl
  · exact h.outListed k (by omega)

/-- Between two elements the invariant is that of the counters and of OUT. -/
theorem RunInv.packed (hp : s.phase = .pack) (slot : Nat) : RunInv (packAt slot s) := by
  have hne : s.phase ≠ .finish := by rw [hp]; decide
  have hinside := h.seqInside hne
  have hseq := seq_succ_toNat hinside
  have hoptr := h.optr_succ hne
  have hlt (hph : s.latch.phaseAt (s.seq + 1).toNat ≠ .finish) : (s.seq + 1).toNat < s.latch.runLen :=
    not_le.mp (mt (phaseAt_eq_finish_iff ..).mpr hph)
  have hend (hph : s.latch.phaseAt (s.seq + 1).toNat = .finish) :
      (s.seq + 1).toNat = s.latch.runLen :=
    Nat.le_antisymm (hseq ▸ hinside) ((phaseAt_eq_finish_iff ..).mp hph)
  obtain ⟨hfull, hroom⟩ := succ_div_mod_of_ppb (n := s.seq.toNat) (ppb_of_accepted h.accepted)
  rw [← h.chiIsRest, ← h.optrIsQuotient, ← hseq] at hfull hroom
  rcases packAt_cases slot s with ⟨hc, e⟩ | ⟨hc, e⟩ <;> rw [e]
  · obtain ⟨hdiv, hmod⟩ := hfull hc
    exact ⟨h.accepted, hlt, hend, hmod.symm, hoptr.trans hdiv.symm,
      fun hph => (phaseAt_ne_pack _ _ hph).elim,
      fun k hk => h.isSome_memRead_memWrite_optr _ (hoptr ▸ hk)⟩
  · obtain ⟨hdiv, hmod⟩ := hroom hc
    exact ⟨h.accepted, hlt, hend, (h.chi_succ hc).trans hmod.symm, hdiv.symm,
      fun hph => (phaseAt_ne_pack _ _ hph).elim, h.outListed⟩

/-- With all elements packed, the full bytes and a rest, if there is one, are the bytes of the run. -/
theorem RunInv.runBytes_eq (hp : s.phase = .finish) :
    s.latch.runBytes = if s.chi = 0 then s.optr.toNat else s.optr.toNat + 1 := by
  have hchi : s.chi = 0 ↔ s.seq.toNat % ppb s.latch.bpp.toNat = 0 := by
    rw [← h.chiIsRest, BitVec.toNat_eq]
    rfl
  simp only [Latch.runBytes, outLen, ← h.seqAtEnd hp, hchi, h.optrIsQuotient]
  rcases ppb_of_accepted h.accepted with hp | hp <;> rw [hp] <;> split <;> omega

/-- After the completion every byte of the run is written. -/
theorem RunInv.isSome_memRead_out_finishRun (hp : s.phase = .finish) {k : Nat}
    (hk : k < s.latch.runBytes) : (memRead (finishRun s).out k).isSome = true := by
  rw [h.runBytes_eq hp] at hk
  rcases finishRun_cases s with ⟨hc, e⟩ | ⟨hc, e⟩ <;> rw [e]
  · rw [if_pos hc] at hk
    exact h.outListed k hk
  · rw [if_neg hc] at hk
    exact h.isSome_memRead_memWrite_optr _ hk

end

/-! ### Each stage and the completion keep the whole invariant -/

theorem finishRun_outCanonical {s : State} (h : Memory.wf outSize s.out) :
    Memory.wf outSize (finishRun s).out := by
  rcases finishRun_cases s with ⟨-, e⟩ | ⟨-, e⟩ <;> rw [e]
  · exact h
  · exact memWrite_wf _ h s.optr.isLt

section
variable {s : State} (h : Inv s) (hb : s.status = .busy)
include h hb

theorem Inv.fetched (hp : s.phase = .map) (xy : Nat × Nat) : Inv (fetchPixel xy s) := by
  have hrun := (h.running hb).fetched hp xy
  rcases fetchPixel_cases xy s with ⟨_, -, e⟩ | ⟨-, e⟩ <;> rw [e] at hrun ⊢ <;>
    exact { h with running := fun _ => hrun }

theorem Inv.quantised (hp : s.phase = .quantise) : Inv (setLevel (quant s.latch s.pixel) s) :=
  { h with running := fun _ => (h.running hb).quantised hp }

theorem Inv.packed (hp : s.phase = .pack) (slot : Nat) : Inv (packAt slot s) := by
  have hrun := (h.running hb).packed hp slot
  rcases packAt_cases slot s with ⟨-, e⟩ | ⟨-, e⟩ <;> rw [e] at hrun ⊢
  · exact { h with
      outCanonical := memWrite_wf _ h.outCanonical s.optr.isLt
      doneListed := fun hd => by cases hb.symm.trans hd
      running := fun _ => hrun }
  · exact { h with running := fun _ => hrun }

theorem Inv.finished (hp : s.phase = .finish) : Inv (finishRun s) := by
  have hrun := h.running hb
  have hf := runFrame_finishRun s
  have hsrc : (finishRun s).src = s.src := (congrArg State.src hf :)
  have herr : (finishRun s).err = s.err := (congrArg State.err hf :)
  have hlatch : (finishRun s).latch = s.latch := (congrArg State.latch hf :)
  have hlen : (finishRun s).outlen.toNat = s.latch.runBytes :=
    Nat.mod_eq_of_lt ((runBytes_le (refusal_zero hrun.accepted).1).trans_lt (by decide))
  refine .of_done (hsrc ▸ h.srcCanonical) (finishRun_outCanonical h.outCanonical)
    (finishRun_status s) ?_ ?_ ?_ fun k hk => hrun.isSome_memRead_out_finishRun hp (hlen ▸ hk)
  · rw [herr, h.err_eq_zero (by simp [hb])]
  · rw [hlatch, hrun.accepted]
  · rw [hlatch, hlen]

end

/-! ### Every step -/

/-- What the block's own step is under an accepted configuration (43_control.md R90). -/
theorem block_step_cases {s t : State} (haccepted : s.latch.refusal = 0) (hb : s.status = .busy)
    (hn : nextHostOp s = none) (ht : step s = .next t) :
    (s.phase = .map ∧ t = fetchPixel (s.latch.coord s.seq.toNat) (passBlockStep s)) ∨
    (s.phase = .quantise ∧ t = setLevel (quant s.latch s.pixel) (passBlockStep s)) ∨
    (s.phase = .pack ∧ t = packAt (s.latch.fieldSlot s.chi.toNat) (passBlockStep s)) ∨
    (s.phase = .finish ∧ t = finishRun (passBlockStep s)) := by
  obtain ⟨hbpp, hbord⟩ := refusal_zero haccepted
  cases hp : s.phase with
  | map =>
    cases ht.symm.trans (step_of_map hn hb hp)
    exact .inl ⟨rfl, rfl⟩
  | quantise =>
    cases ht.symm.trans (step_of_quantise hn hb hp hbpp)
    exact .inr (.inl ⟨rfl, rfl⟩)
  | pack =>
    cases ht.symm.trans (step_of_pack hn hb hp hbord)
    exact .inr (.inr (.inl ⟨rfl, rfl⟩))
  | finish =>
    cases ht.symm.trans (step_of_finish hn hb hp)
    exact .inr (.inr (.inr ⟨rfl, rfl⟩))

/-- A step of the block keeps the invariant. -/
theorem Inv.of_block_step {s t : State} (h : Inv s) (hb : s.status = .busy)
    (hn : nextHostOp s = none) (ht : step s = .next t) : Inv t := by
  have hpass : Inv (passBlockStep s) := h.of_keepsRun (.of_sameBlock (sameBlock_passBlockStep s))
  rcases block_step_cases (h.running hb).accepted hb hn ht with ⟨hp, rfl⟩ | ⟨hp, rfl⟩ | ⟨hp, rfl⟩
    | ⟨hp, rfl⟩
  · exact hpass.fetched hb hp _
  · exact hpass.quantised hb hp
  · exact hpass.packed hb hp _
  · exact hpass.finished hb hp

/-- A host operation that issues no instruction keeps the invariant. -/
theorem Inv.landHostOp {s : State} (h : Inv s) (op : HostOp) : Inv (landHostOp op s) := by
  by_cases hr : op = .reset
  · subst hr
    exact inv_resetBlock s
  · by_cases hb : s.status = .busy
    · exact h.of_keepsRun (.of_sameBlock (landHostOp_busy_sameBlock hb hr))
    · exact h.of_keepsRun (keepsRun_landHostOp hb hr)

/-- Settles O40: ENCODE, the other host operations and the block's own steps each keep the invariant. -/
theorem everyStepKeepsTheInvariant : Obligations.EveryStepKeepsTheInvariant := by
  intro s t h ht
  have htake : Inv (takeHostOp s) := h.of_keepsRun (.of_sameBlock (sameBlock_takeHostOp s))
  rcases step_cases s with ⟨op, i, -, hi, e⟩ | ⟨op, -, -, e⟩ | ⟨i, hn, hb, -, -⟩ | ⟨hn, hb, -, -⟩
    | ⟨-, -, e⟩
  · obtain ⟨v, -, -, rfl⟩ := issuedBy_some hi
    exact inv_exec_encode htake (e.symm.trans ht)
  · cases ht.symm.trans e
    exact htake.landHostOp op
  · exact h.of_block_step hb hn ht
  · exact h.of_block_step hb hn ht
  · cases ht.symm.trans e
    exact h

/-! ### The table of STATE -/

/-- The block's own step moves STATE at the completion only (43_control.md R92). -/
theorem block_step_status {s t : State} (h : Inv s) (hb : s.status = .busy)
    (hn : nextHostOp s = none) (ht : step s = .next t) :
    t.status = if s.phase = .finish then .done else .busy := by
  rcases block_step_cases (h.running hb).accepted hb hn ht with ⟨hp, rfl⟩ | ⟨hp, rfl⟩ | ⟨hp, rfl⟩
    | ⟨hp, rfl⟩ <;> simp [hp, hb]

theorem finishRun_seq (s : State) : (finishRun s).seq = s.seq := by
  rcases finishRun_cases s with ⟨-, e⟩ | ⟨-, e⟩ <;> rw [e]

/-- The packer alone counts SEQ on. -/
theorem block_step_seq {s t : State} (h : Inv s) (hb : s.status = .busy)
    (hn : nextHostOp s = none) (ht : step s = .next t) :
    t.seq = s.seq ∨ t.seq.toNat = s.seq.toNat + 1 := by
  rcases block_step_cases (h.running hb).accepted hb hn ht with ⟨-, rfl⟩ | ⟨-, rfl⟩ | ⟨hp, rfl⟩
    | ⟨-, rfl⟩
  · exact .inl (fetchPixel_seq ..)
  · exact .inl rfl
  · rw [packAt_seq]
    exact .inr (seq_succ_toNat ((h.running hb).seqInside (by rw [hp]; decide)))
  · exact .inl (finishRun_seq _)

/-- What is not a START, nor a reset, and comes outside a run, keeps what a run left. -/
theorem step_keepsRun {s t : State} (hb : s.status ≠ .busy) (hr : nextHostOp s ≠ some .reset)
    (hw : ∀ v, nextHostOp s = some (.wr 0 v) → v.getLsbD 0 = false) (ht : step s = .next t) :
    KeepsRun s t := by
  rcases step_cases s with ⟨op, i, ho, hi, -⟩ | ⟨op, ho, -, e⟩ | ⟨-, -, hb', -⟩ | ⟨-, hb', -⟩
    | ⟨-, -, e⟩
  · obtain ⟨v, rfl, hv, -⟩ := issuedBy_some hi
    cases hv.symm.trans (hw v ho)
  · cases ht.symm.trans e
    exact .trans (.of_sameBlock (sameBlock_takeHostOp s))
      (keepsRun_landHostOp (s := takeHostOp s) hb fun h => hr (h ▸ ho))
  · exact absurd hb' hb
  · exact absurd hb' hb
  · cases ht.symm.trans e
    exact .refl s

/-- Settles O41: what lands decides the row of the table. -/
theorem stateMovesOnlyByTheTable : Obligations.StateMovesOnlyByTheTable := by
  intro s t h ht
  have hsame {op : HostOp} (ho : nextHostOp s = some op) (hr : op ≠ .reset) (hb : s.status = .busy) :
      SameBlock s t := by
    cases ht.symm.trans (step_hostOp_busy hb ho)
    exact (sameBlock_takeHostOp s).trans (landHostOp_busy_sameBlock (s := takeHostOp s) hb hr)
  refine ⟨fun ho => ?_, fun op ho hr hb => (hsame ho hr hb).status.trans hb,
    fun hn hb => block_step_status h hb hn ht, fun v ho hv hb => ?_,
    fun hr hb hw => (step_keepsRun hb hr hw ht).status, fun hr hb => ?_⟩
  · cases ht.symm.trans (step_of_nextHostOp ho rfl)
    rfl
  · obtain ⟨u, hu, -, hstatus⟩ := exec_encode_err (s := takeHostOp s) (rot := cwRot v)
      (bord := cwBord v) (bpp := cwBpp v) hb
    cases ht.symm.trans ((step_wr_of_start ho hv).trans hu)
    by_cases he : t.err = 0
    · exact .inl ⟨he, hstatus.trans (if_pos he)⟩
    · exact .inr ⟨he, hstatus.trans (if_neg he)⟩
  · cases ho : nextHostOp s with
    | some op =>
      have hst := hsame ho (fun h => hr (h ▸ ho)) hb
      exact .inl (KeepsRun.of_sameBlock hst).seq
    | none => exact block_step_seq h hb ho ht

end Sys2Proof
end

section
/-! O7, O8, O10, O11: ENCODE, refused or accepted, and the reserved rows (43_control.md R88,
60_exceptions.md R99 to R103). -/

namespace Sys2Proof.Machine

/-! ### The causes of a refusal -/

theorem geometry_refused_iff (w h : BitVec 10) :
    (!supportedGeometry w h && Config.geomCheck) = true ↔
      Config.geomCheck = true ∧ ¬ ((w = 800 ∧ h = 480) ∨ (w = 480 ∧ h = 800)) := by
  rw [← supportedGeometry_eq_true_iff, Bool.and_eq_true, Bool.not_eq_true', Bool.not_eq_true, and_comm]

theorem or_refusal_of_bits {cause : BitVec 3} {l : Latch}
    (h : ∀ i, cause.getLsbD i = true → l.refusal.getLsbD i = true) :
    cause ||| l.refusal = l.refusal := by
  refine BitVec.eq_of_getLsbD_eq fun i _ => ?_
  rw [BitVec.getLsbD_or, Bool.or_eq_right_iff_imp]
  exact h i

theorem eBpp_or_refusal {l : Latch} (h : l.bpp = 0 ∨ l.bpp = 3) : eBpp ||| l.refusal = l.refusal :=
  or_refusal_of_bits fun i hi => (refusal_getLsbD l i).mpr (.inl ⟨h, (eBpp_getLsbD i).mp hi⟩)

theorem eBord_or_refusal {l : Latch} (h : l.bord = 2 ∨ l.bord = 3) :
    eBord ||| l.refusal = l.refusal :=
  or_refusal_of_bits fun i hi => (refusal_getLsbD l i).mpr (.inr (.inl ⟨h, (eBord_getLsbD i).mp hi⟩))

/-! ### ENCODE outside a run -/

section
variable {rot : BitVec 1} {bord bpp : BitVec 2} {s : State} (hb : s.status ≠ .busy)
include hb

theorem exec_encode_refused (hr : (latchOf rot bord bpp s).refusal ≠ 0) :
    exec (.encode rot bord bpp) s
      = .next (raiseConfigError (latchOf rot bord bpp s).refusal
          (latchConfig (storeCtrl rot bord bpp s))) := by
  rw [exec_encode_of_not_busy hb, startRun]
  exact congrArg _ (if_pos hr)

/-- A cause among those that apply: the START does what the error entry for that cause does. -/
theorem exec_encode_eq_refuseSelection {cause : BitVec 3} (h0 : cause ≠ 0)
    (h : cause ||| (latchOf rot bord bpp s).refusal = (latchOf rot bord bpp s).refusal) :
    exec (.encode rot bord bpp) s
      = refuseSelection cause (latchConfig (storeCtrl rot bord bpp s)) := by
  have hr : (latchOf rot bord bpp s).refusal ≠ 0 := fun hz => h0 (by simpa [hz] using h)
  rw [exec_encode_refused hb hr, ← h]
  rfl

end

/-- Settles O11: the reserved selection is a cause of the latched configuration already. -/
theorem encodeOfAReservedSelectionIsItsRow : Obligations.EncodeOfAReservedSelectionIsItsRow := by
  intro rot bord bpp s hb
  have hbpp (h : bpp = 0 ∨ bpp = 3) := exec_encode_eq_refuseSelection hb (cause := eBpp) (by decide)
    (eBpp_or_refusal (l := latchOf rot bord bpp s) h)
  have hbord (h : bord = 2 ∨ bord = 3) := exec_encode_eq_refuseSelection hb (cause := eBord) (by decide)
    (eBord_or_refusal (l := latchOf rot bord bpp s) h)
  exact ⟨fun h => hbpp (.inl h), fun h => hbpp (.inr h), fun h => hbord (.inl h),
    fun h => hbord (.inr h)⟩

/-- Settles O7: the START is refused with the causes of the configuration it latches, or starts the
run. -/
theorem encodeIsOneAtomicAction : Obligations.EncodeIsOneAtomicAction := by
  refine ⟨fun s cw ho hv => step_wr_of_start ho hv, fun rot bord bpp s =>
    ⟨exec_encode_busy rot bord bpp, fun hb => ⟨(latchOf rot bord bpp s).refusal, ?_,
      exec_encode_refused hb, fun hr => ⟨_, exec_encode_accepted hb hr⟩⟩⟩⟩
  simp only [Latch.refusal, Latch.causes, geometry_refused_iff]
  rfl

/-- Settles O8: no cause applies, and the supported geometries have elements to fetch. -/
theorem encodeStartsARun : Obligations.EncodeStartsARun := by
  intro rot bord bpp s hb hbpp hbord hgeom
  have hlen : 0 < (latchOf rot bord bpp s).runLen := by
    have hlast := Config.rotLastX.isLt
    rw [runLen_latchOf]
    rcases hgeom with ⟨hw, hh⟩ | ⟨hw, hh⟩ <;> rw [hw, hh] <;> split <;> simp <;> omega
  rw [exec_encode_accepted hb (refusal_of_checks hbpp hbord fun _ => hgeom), startedRun,
    phaseAt_of_lt hlen]
  rfl

/-! ### The reserved rows -/

/-- The row's own cause is set, and each of the others exactly when it applies. -/
theorem eBpp_or_refusal_getLsbD (l : Latch) :
    (eBpp ||| l.refusal).getLsbD 0 = true ∧
    ((eBpp ||| l.refusal).getLsbD 1 = true ↔ (l.bord = 2 ∨ l.bord = 3)) ∧
    ((eBpp ||| l.refusal).getLsbD 2 = true ↔
      (Config.geomCheck = true ∧ ¬ ((l.w = 800 ∧ l.h = 480) ∨ (l.w = 480 ∧ l.h = 800)))) := by
  simp only [BitVec.getLsbD_or, Bool.or_eq_true, refusal_getLsbD, eBpp_getLsbD]
  simp

/-- As `eBpp_or_refusal_getLsbD`, for an unrecognised BORD. -/
theorem eBord_or_refusal_getLsbD (l : Latch) :
    ((eBord ||| l.refusal).getLsbD 0 = true ↔ (l.bpp = 0 ∨ l.bpp = 3)) ∧
    (eBord ||| l.refusal).getLsbD 1 = true ∧
    ((eBord ||| l.refusal).getLsbD 2 = true ↔
      (Config.geomCheck = true ∧ ¬ ((l.w = 800 ∧ l.h = 480) ∨ (l.w = 480 ∧ l.h = 800)))) := by
  simp only [BitVec.getLsbD_or, Bool.or_eq_true, refusal_getLsbD, eBord_getLsbD]
  simp

/-- Settles O10: the row's own cause beside those of the latched configuration, bit by bit. -/
theorem reservedRowsEnterTheError : Obligations.ReservedRowsEnterTheError := by
  refine ⟨?_, ?_⟩ <;> rintro i (rfl | rfl) s
  · exact ⟨_, rfl, eBpp_or_refusal_getLsbD s.latch⟩
  · exact ⟨_, rfl, eBpp_or_refusal_getLsbD s.latch⟩
  · exact ⟨_, rfl, eBord_or_refusal_getLsbD s.latch⟩
  · exact ⟨_, rfl, eBord_or_refusal_getLsbD s.latch⟩

end Sys2Proof.Machine
end

section
/-! O36, O37: what a run computes depends on the selected thresholds and on the words it reads alone
(43_control.md R96, R97). -/

namespace Sys2Proof.Machine

/-! ### `EncodeCore` sees levels only -/

/-- Configurations that pack alike, over sources that give the same levels, give the same bytes. -/
theorem encodeCore_congr {last : Nat} {l l' : Latch} {src src' : Nat → Word} (hbpp : l'.bpp = l.bpp)
    (hbord : l'.bord = l.bord) (hlen : l'.seqLen last = l.seqLen last)
    (hlevel : ∀ n < l.seqLen last,
      quant l' (src' (scanAddr l' n)) = quant l (src (scanAddr l n))) :
    encodeCore last l' src' = encodeCore last l src := by
  have hlev : lev last l' src' = lev last l src := by
    funext n
    unfold lev
    rw [hlen]
    split
    · next h => exact hlevel n h
    · rfl
  have hbyte : outByte last l' src' = outByte last l src := by
    funext k
    simp only [outByte, hbpp, hbord, hlev]
  simp only [encodeCore, hbyte, hbpp, hlen]

/-- Settles O37: at each width the quantiser does not read the other width's thresholds. -/
theorem unusedThresholdsHaveNoInfluence : Obligations.UnusedThresholdsHaveNoInfluence := by
  refine fun last l src => ⟨fun hbpp t => encodeCore_congr rfl rfl rfl fun n _ => ?_,
    fun hbpp t => encodeCore_congr rfl rfl rfl fun n _ => ?_⟩
  · rw [quant_of_bpp_one hbpp, quant_of_bpp_one (l := { l with thr2 := t }) hbpp]
    rfl
  · rw [quant_of_bpp_two hbpp, quant_of_bpp_two (l := { l with t := t }) hbpp]
    rfl

/-! ### The end of a START, refused or accepted -/

/-- `t` is as a START that latches `l` leaves the block in the end: refused with the causes of `l`, or DONE
with the bytes of `EncodeCore` over `src` (43_control.md R88, R91). -/
structure EndsStart (l : Latch) (src : Nat → Word) (t : State) : Prop where
  err : t.err = l.refusal
  status : t.status = if l.refusal = 0 then .done else .error
  outlen : t.outlen = if l.refusal = 0 then BitVec.ofNat 18 l.runBytes else 0
  out : ∀ k < t.outlen.toNat, memRead t.out k = (encodeCore Config.rotLastX.val l src)[k]?

section
variable {rot : BitVec 1} {bord bpp : BitVec 2} {s : State} (hb : s.status ≠ .busy)
include hb

theorem refused_start_ends (hr : (latchOf rot bord bpp s).refusal ≠ 0) :
    ∃ t0 t, exec (.encode rot bord bpp) s = .next t0 ∧ Reaches t0 t ∧
      EndsStart (latchOf rot bord bpp s) (srcWord s) t :=
  ⟨_, _, exec_encode_refused hb hr, .refl _,
    { err := rfl, status := (if_neg hr).symm, outlen := (if_neg hr).symm, out := nofun }⟩

theorem accepted_start_ends (hr : NoReset s) (hload : SourceLoaded s (latchOf rot bord bpp s))
    (haccepted : (latchOf rot bord bpp s).refusal = 0) :
    ∃ t0 t, exec (.encode rot bord bpp) s = .next t0 ∧ Reaches t0 t ∧
      EndsStart (latchOf rot bord bpp s) (srcWord s) t := by
  obtain ⟨t, hreach, hframe, hbytes, -⟩ :=
    (runsFrom_startedRun rot bord bpp s).completes hr rfl haccepted hload
  have herr : t.err = 0 := (congrArg State.err hframe :)
  have hstatus : t.status = .done := (congrArg State.status hframe :)
  have hlen : t.outlen = BitVec.ofNat 18 (latchOf rot bord bpp s).runBytes :=
    (congrArg State.outlen hframe :)
  refine ⟨_, t, exec_encode_accepted hb haccepted, hreach, herr.trans haccepted.symm,
    hstatus.trans (if_pos haccepted).symm, hlen.trans (if_pos haccepted).symm, fun k hk => ?_⟩
  have hk' : k < (runOutput (startedRun rot bord bpp s)).length := by
    rw [runOutput_length]
    rw [hlen] at hk
    exact hk.trans_le (Nat.mod_le _ _)
  have hbyte := List.getElem?_eq_getElem hk'
  exact (hbytes k _ hbyte).trans hbyte.symm

theorem start_ends (hr : NoReset s) (hload : SourceLoaded s (latchOf rot bord bpp s)) :
    ∃ t0 t, exec (.encode rot bord bpp) s = .next t0 ∧ Reaches t0 t ∧
      EndsStart (latchOf rot bord bpp s) (srcWord s) t := by
  by_cases h : (latchOf rot bord bpp s).refusal = 0
  · exact accepted_start_ends hb hr hload h
  · exact refused_start_ends hb h

end

theorem EndsStart.not_busy {l : Latch} {src : Nat → Word} {t : State} (h : EndsStart l src t) :
    t.status ≠ .busy := by
  rw [h.status]
  split <;> decide

/-- Settles O36: both STARTs latch the same configuration, and the words that its scan addresses are the
same. -/
theorem equalInputsGiveEqualOutputs : Obligations.EqualInputsGiveEqualOutputs := by
  intro rot bord bpp s s' hb hb' hr hr' hw hh ht1 ht2 hsrc
  have hlatch : latchOf rot bord bpp s' = latchOf rot bord bpp s := by
    simp only [latchOf, hw, hh, ht1, ht2]
  have hread (n : Nat) (hn : n < (latchOf rot bord bpp s).runLen) := hsrc _ (scanAddr_lt_mul hn)
  have hbytes : encodeCore Config.rotLastX.val (latchOf rot bord bpp s) (srcWord s')
      = encodeCore Config.rotLastX.val (latchOf rot bord bpp s) (srcWord s) :=
    encodeCore_congr rfl rfl rfl fun n hn => by simp only [srcWord, (hread n hn).2]
  have hload' : SourceLoaded s' (latchOf rot bord bpp s') := by
    rw [hlatch]
    exact fun n hn => (hread n hn).2 ▸ (hread n hn).1
  obtain ⟨t0, t, hstart, ⟨n, hrun⟩, h⟩ := start_ends hb hr fun n hn => (hread n hn).1
  obtain ⟨t0', t', hstart', ⟨n', hrun'⟩, h'⟩ := start_ends hb' hr' hload'
  rw [hlatch] at h'
  have hlen : t.outlen = t'.outlen := h.outlen.trans h'.outlen.symm
  refine ⟨n, n', t0, t0', t, t', hstart, hstart', hrun, hrun', h.not_busy,
    h.status.trans h'.status.symm, h.err.trans h'.err.symm, hlen, fun k hk => ?_⟩
  rw [h.out k hk, h'.out k (hlen ▸ hk), hbytes]

end Sys2Proof.Machine
end

section
/-! O15: the two quantiser rules as one monotone family (40_quantizer.md R68). -/

namespace Sys2Proof.Machine

theorem anyGt_eq_true_iff (c0 c1 c2 t : Byte) :
    anyGt c0 c1 c2 t = true ↔ t < c0 ∨ t < c1 ∨ t < c2 := by
  simp only [anyGt, Bool.or_eq_true, decide_eq_true_eq, or_assoc]

/-- All channels at or below the threshold: none exceeds it. -/
theorem qnt1_eq_ite_anyGt (c0 c1 c2 t : Byte) :
    qnt1 c0 c1 c2 t = if anyGt c0 c1 c2 t = true then 0 else 1 := by
  have hnone : (c0 ≤ t ∧ c1 ≤ t ∧ c2 ≤ t) ↔ ¬ anyGt c0 c1 c2 t = true := by
    simp only [anyGt_eq_true_iff, not_or, BitVec.not_lt]
  simp only [qnt1, hnone, ite_not]

/-- A threshold that some channel exceeds is exceeded when channels are raised. -/
theorem anyGt_of_le {c0 c1 c2 d0 d1 d2 t : Byte} (h0 : c0 ≤ d0) (h1 : c1 ≤ d1) (h2 : c2 ≤ d2)
    (h : anyGt c0 c1 c2 t = true) : anyGt d0 d1 d2 t = true := by
  rw [anyGt_iff_toNat] at h ⊢
  rw [BitVec.le_def] at h0 h1 h2
  omega

/-- The level of one test, and of three in a row, is no larger when tests that held go on to hold. -/
theorem oneTestLevel_antitone : ∀ a b : Bool, (a = true → b = true) →
    (if b = true then 0 else 1 : Level) ≤ if a = true then 0 else 1 := by decide

theorem threeTestsLevel_antitone : ∀ a0 b0 a1 b1 a2 b2 : Bool, (a0 = true → b0 = true) →
    (a1 = true → b1 = true) → (a2 = true → b2 = true) →
    (if b0 = true then 0 else if b1 = true then 1 else if b2 = true then 2 else 3 : Level)
      ≤ if a0 = true then 0 else if a1 = true then 1 else if a2 = true then 2 else 3 := by decide

/-- Settles O15: both rules are rows of `anyGt` tests, and those are monotone in the channels. -/
theorem quantisersAreOneMonotoneFamily : Obligations.QuantisersAreOneMonotoneFamily := by
  refine ⟨fun c0 c1 c2 t => ?_, fun c0 c1 c2 d0 d1 d2 t h0 h1 h2 => ?_,
    fun c0 c1 c2 d0 d1 d2 t0 t1 t2 h0 h1 h2 => ?_⟩
  · simp only [qnt1_eq_ite_anyGt, anyGt_eq_true_iff]
  · rw [qnt1_eq_ite_anyGt, qnt1_eq_ite_anyGt]
    exact oneTestLevel_antitone _ _ (anyGt_of_le h0 h1 h2)
  · exact threeTestsLevel_antitone _ _ _ _ _ _ (anyGt_of_le h0 h1 h2) (anyGt_of_le h0 h1 h2)
      (anyGt_of_le h0 h1 h2)

end Sys2Proof.Machine
end

section
/-! O21, O22: the two scans visit their grid once, and a run's addresses are distinct (41_mapper.md R73,
R74; 00_scope.md R8). -/

namespace Sys2Proof.Machine

/-! ### Coordinates -/

theorem coordN_inj {n m w : Nat} (h : coordN n w = coordN m w) : n = m :=
  Nat.ext_div_mod (Prod.ext_iff.mp h).2 (Prod.ext_iff.mp h).1

theorem div_lt_of_lt_seqLen {last w h n : Nat} (hn : n < seqLen last w h true) : n / h < w - last :=
  Nat.div_lt_of_lt_mul (Nat.mul_comm _ _ ▸ hn)

theorem coordR_inj {last n m w h : Nat} (hn : n < seqLen last w h true)
    (hm : m < seqLen last w h true) (he : coordR n w h = coordR m w h) : n = m := by
  have hnw := div_lt_of_lt_seqLen hn
  have hmw := div_lt_of_lt_seqLen hm
  obtain ⟨hx, hy⟩ := Prod.ext_iff.mp he
  simp only [coordR] at hx
  exact Nat.ext_div_mod (by omega) hy

/-- The grid of the loop nest of R71. -/
theorem exists_coordN_iff (last w h x y : Nat) :
    (∃ n, n < seqLen last w h false ∧ coordN n w = (x, y)) ↔ x < w ∧ y < h := by
  have hscan := congrArg ((x, y) ∈ ·) (nonRotatedScanIsRowMajor.2 last w h).1
  simpa [and_comm] using hscan

/-- The grid of the loop nest of R72. -/
theorem exists_coordR_iff (last w h x y : Nat) :
    (∃ n, n < seqLen last w h true ∧ coordR n w h = (x, y)) ↔ last ≤ x ∧ x < w ∧ y < h := by
  have hscan := congrArg ((x, y) ∈ ·) (rotatedScanIsColumnsDescending.2 last w h)
  have hcolumn : (∃ c < w - last, w - 1 - c = x) ↔ last ≤ x ∧ x < w :=
    ⟨fun ⟨c, hc, hx⟩ => by omega, fun _ => ⟨w - 1 - x, by omega, by omega⟩⟩
  rw [← and_assoc, ← hcolumn]
  simpa [← exists_and_right, and_assoc, and_comm, and_left_comm] using hscan

/-- Settles O21: a coordinate of a scan gives the quotient and the remainder of its element back. -/
theorem scanVisitsEachPixelOnce : Obligations.ScanVisitsEachPixelOnce := fun last w h =>
  ⟨fun _ _ _ _ => coordN_inj, fun _ _ => coordR_inj, exists_coordN_iff last w h,
    exists_coordR_iff last w h⟩

/-! ### Addresses -/

theorem srcAddr_div_mod {w : Nat} {p : Nat × Nat} (hp : p.1 < w) :
    srcAddr w p / w = p.2 ∧ srcAddr w p % w = p.1 :=
  (Nat.div_mod_unique (by omega)).mpr ⟨by rw [srcAddr, Nat.mul_comm, Nat.add_comm], hp⟩

theorem srcAddr_inj {w : Nat} {p q : Nat × Nat} (hp : p.1 < w) (hq : q.1 < w)
    (h : srcAddr w p = srcAddr w q) : p = q := by
  obtain ⟨hpd, hpm⟩ := srcAddr_div_mod hp
  obtain ⟨hqd, hqm⟩ := srcAddr_div_mod hq
  rw [h] at hpd hpm
  exact Prod.ext (hpm.symm.trans hqm) (hpd.symm.trans hqd)

theorem Latch.seqLen_of_rotated {l : Latch} (h : l.rot ≠ 0) (last : Nat) :
    l.seqLen last = Machine.seqLen last l.w.toNat l.h.toNat true := by
  have hone : ∀ rot : BitVec 1, rot ≠ 0 → rot = 1 := by decide
  simp only [Latch.seqLen, hone l.rot h, decide_true]

theorem scanAddr_inj {last n m : Nat} {l : Latch} (hn : n < l.seqLen last) (hm : m < l.seqLen last)
    (h : scanAddr l n = scanAddr l m) : n = m := by
  by_cases hr : l.rot = 0
  · rwa [scanAddr_nonRotated hr, scanAddr_nonRotated hr] at h
  · rw [l.seqLen_of_rotated hr] at hn hm
    have hw : 0 < l.w.toNat :=
      (Nat.zero_le _).trans_lt ((div_lt_of_lt_seqLen hn).trans_le (Nat.sub_le _ last))
    have hcolumn (n : Nat) : (coordR n l.w.toNat l.h.toNat).1 < l.w.toNat :=
      (Nat.sub_le _ _).trans_lt (Nat.sub_one_lt hw.ne')
    simp only [scanAddr, hr, if_false] at h
    exact coordR_inj hn hm (srcAddr_inj (hcolumn n) (hcolumn m) h)

/-- Settles O22: -/
theorem runAddressesStayInRange : Obligations.RunAddressesStayInRange := by
  intro last l
  have hlen : l.seqLen last ≤ 1046529 := (seqLen_le_mul last l).trans (width_mul_height_le l)
  refine ⟨fun n => scanAddr_lt_mul, fun n m => scanAddr_inj, scanAddr_nonRotated, hlen, fun hb => ?_⟩
  have hbpp : l.bpp.toNat = 1 ∨ l.bpp.toNat = 2 := hb.imp (congrArg _) (congrArg _)
  rw [outLen_le_iff hbpp]
  rcases ppb_of_bpp hb with hp | hp <;> omega

end Sys2Proof.Machine
end

section
/-! O27, O28: the fields of a raw byte, bit by bit, and the laws of the packer (42_packer.md R79, R85,
R86). -/

namespace Sys2Proof.Machine

/-! ### The bits of a composed byte -/

theorem composed_getLsbD_iff (slot : Nat → Nat) (v : Nat → Level) (n k : Nat) :
    (composed slot v n).getLsbD k = true ↔ ∃ i < n, (placed (v i) (slot i)).getLsbD k = true := by
  induction n with
  | zero => simp [composed]
  | succ n ih =>
    rw [composed, BitVec.getLsbD_or, Bool.or_eq_true, ih, Nat.exists_lt_succ_right]

theorem composed_congr {slot : Nat → Nat} {u v : Nat → Level} {n : Nat} (h : ∀ i < n, u i = v i) :
    composed slot u n = composed slot v n := by
  induction n with
  | zero => rfl
  | succ n ih => rw [composed, composed, ih fun i hi => h i (by omega), h n (by omega)]

theorem placed_getLsbD_inside (v : Level) {slot b : Nat} (h : slot + b < 8) :
    (placed v slot).getLsbD (slot + b) = v.getLsbD b := by
  simp [placed, h]

theorem placed_getLsbD_outside {v : Level} {bpp slot k : Nat} (hv : v.toNat < 2 ^ bpp)
    (h : k < slot ∨ slot + bpp ≤ k) : (placed v slot).getLsbD k = false := by
  rcases h with h | h
  · simp [placed, h]
  · have hbit : v.getLsbD (k - slot) = false := Nat.testBit_lt_two_pow
      (hv.trans_le (Nat.pow_le_pow_right Nat.two_pos (by omega)))
    simp [placed, hbit]

/-- Among fields that lie apart, each holds the bits of its own level. -/
theorem FieldsApart.composed_getLsbD {bpp n i b : Nat} {slot : Nat → Nat} {v : Nat → Level}
    (hs : FieldsApart bpp slot n) (hv : ∀ i, (v i).toNat < 2 ^ bpp) (hi : i < n) (hb : b < bpp) :
    (composed slot v n).getLsbD (slot i + b) = (v i).getLsbD b := by
  have hfit : slot i + b < 8 := by have := (hs i hi).1; omega
  have hother : ∀ j < n, j ≠ i → (placed (v j) (slot j)).getLsbD (slot i + b) = false := by
    refine fun j hj hne => placed_getLsbD_outside (hv j) ?_
    rcases Nat.lt_or_gt_of_ne hne with hji | hij
    · rcases (hs i hi).2 j hji with h | h <;> omega
    · rcases (hs j hj).2 i hij with h | h <;> omega
  rw [Bool.eq_iff_iff, composed_getLsbD_iff, ← placed_getLsbD_inside (v i) hfit]
  refine ⟨fun ⟨j, hj, h⟩ => ?_, fun h => ⟨i, hi, h⟩⟩
  by_cases hji : j = i
  · rwa [hji] at h
  · rw [hother j hj hji] at h
    cases h

/-! ### Slots whose fields make up the whole byte -/

/-- The fields of `bpp` bits from the slots up lie apart and leave no bit of the byte out. -/
structure TilesByte (bpp : Nat) (slot : Nat → Nat) : Prop where
  apart : FieldsApart bpp slot (ppb bpp)
  covers : ∀ k < 8, ∃ i < ppb bpp, ∃ b < bpp, slot i + b = k

theorem tilesByte_slotM {bpp : Nat} (h : bpp = 1 ∨ bpp = 2) : TilesByte bpp (slotM bpp) where
  apart := fieldsApart_slotM bpp
  covers := by rcases h with rfl | rfl <;> decide

theorem tilesByte_slotL {bpp : Nat} (h : bpp = 1 ∨ bpp = 2) : TilesByte bpp (slotL bpp) where
  apart := fieldsApart_slotL bpp
  covers := by rcases h with rfl | rfl <;> decide

theorem xor_ones_getLsbD (x : Byte) {k : Nat} (hk : k < 8) :
    (x ^^^ 0xFF).getLsbD k = !x.getLsbD k := by
  have hnot : x ^^^ 0xFF = ~~~x := BitVec.xor_allOnes
  rw [hnot, BitVec.getLsbD_not, decide_eq_true hk, Bool.true_and]

/-- The complement of a level of `bpp` bits (42_packer.md R86). -/
def complementLevel (bpp : Nat) (v : Level) : Level := BitVec.ofNat 2 (2 ^ bpp - 1 - v.toNat)

theorem complementLevel_toNat_lt {bpp : Nat} (h : bpp = 1 ∨ bpp = 2) :
    ∀ v : Level, (complementLevel bpp v).toNat < 2 ^ bpp := by
  rcases h with rfl | rfl <;> decide

theorem complementLevel_getLsbD {bpp b : Nat} (h : bpp = 1 ∨ bpp = 2) (hb : b < bpp) (v : Level)
    (hv : v.toNat < 2 ^ bpp) : (complementLevel bpp v).getLsbD b = !v.getLsbD b := by
  revert v b
  rcases h with rfl | rfl <;> decide

section
variable {bpp : Nat} {slot : Nat → Nat} (ht : TilesByte bpp slot)
include ht

/-- Two bytes are equal when their fields are. -/
theorem TilesByte.ext {x y : Byte}
    (h : ∀ i < ppb bpp, ∀ b < bpp, x.getLsbD (slot i + b) = y.getLsbD (slot i + b)) : x = y := by
  refine BitVec.eq_of_getLsbD_eq fun k hk => ?_
  obtain ⟨i, hi, b, hb, rfl⟩ := ht.covers k hk
  exact h i hi b hb

theorem TilesByte.field_lt {i b : Nat} (hi : i < ppb bpp) (hb : b < bpp) : slot i + b < 8 := by
  have := (ht.apart i hi).1
  omega

variable {v : Nat → Level} (hv : ∀ i, (v i).toNat < 2 ^ bpp)
include hv

/-- R85: the field of a pixel, read as a number, is its level. -/
theorem TilesByte.composed_field {i : Nat} (hi : i < ppb bpp) :
    (composed slot v (ppb bpp)).toNat / 2 ^ slot i % 2 ^ bpp = (v i).toNat := by
  refine Nat.eq_of_testBit_eq fun b => ?_
  rw [Nat.testBit_mod_two_pow, Nat.testBit_div_two_pow]
  by_cases hb : b < bpp
  · have hbit := ht.apart.composed_getLsbD hv hi hb
    simpa [hb, BitVec.getLsbD, Nat.add_comm] using hbit
  · have hzero : (v i).toNat.testBit b = false := Nat.testBit_lt_two_pow
      ((hv i).trans_le (Nat.pow_le_pow_right Nat.two_pos (by omega)))
    simp [hb, hzero]

/-- R86 (b): the inversion of the complemented chunk is the raw byte of the chunk. -/
theorem TilesByte.composed_complement (hbpp : bpp = 1 ∨ bpp = 2) :
    composed slot (fun i => complementLevel bpp (v i)) (ppb bpp) ^^^ 0xFF
      = composed slot v (ppb bpp) := by
  refine ht.ext fun i hi b hb => ?_
  rw [xor_ones_getLsbD _ (ht.field_lt hi hb),
    ht.apart.composed_getLsbD (fun i => complementLevel_toNat_lt hbpp (v i)) hi hb,
    ht.apart.composed_getLsbD hv hi hb, complementLevel_getLsbD hbpp hb (v i) (hv i), Bool.not_not]

/-- An element that is 0 in two chunks has its field empty in one raw byte and full of ones in the
inversion of the other. -/
theorem TilesByte.xor_ones_ne {u : Nat → Level} {r : Nat} (hu : ∀ i, (u i).toNat < 2 ^ bpp)
    (hbpp : 0 < bpp) (hr : r < ppb bpp) (hur : u r = 0) (hvr : v r = 0) :
    composed slot u (ppb bpp) ^^^ 0xFF ≠ composed slot v (ppb bpp) := by
  intro h
  have hbit := congrArg (BitVec.getLsbD · (slot r + 0)) h
  simp only [xor_ones_getLsbD _ (ht.field_lt hr hbpp), ht.apart.composed_getLsbD hu hr hbpp,
    ht.apart.composed_getLsbD hv hr hbpp, hur, hvr] at hbit
  cases hbit

end

/-- Settles O27: the slots of both orders tile the byte, and a tiled byte holds the levels. -/
theorem eachFieldHoldsItsLevel : Obligations.EachFieldHoldsItsLevel := fun _ _ hbpp hv _ hi =>
  ⟨(tilesByte_slotM hbpp).composed_field hv hi, (tilesByte_slotL hbpp).composed_field hv hi⟩

/-! ### The two bit orders -/

theorem slotM_reverse {bpp i : Nat} (hi : i < ppb bpp) : slotM bpp (ppb bpp - 1 - i) = slotL bpp i := by
  rw [slotM, slotL, Nat.sub_sub_self (by omega)]

/-- R86 (c): LSB order is MSB order of the reversed chunk. -/
theorem rawL_eq_rawM_reverse {bpp : Nat} {v : Nat → Level} (hbpp : bpp = 1 ∨ bpp = 2)
    (hv : ∀ i, (v i).toNat < 2 ^ bpp) : rawL bpp v = rawM bpp (fun i => v (ppb bpp - 1 - i)) := by
  refine (tilesByte_slotL hbpp).ext fun i hi b hb => ?_
  rw [rawL, (fieldsApart_slotL bpp).composed_getLsbD hv hi hb, rawM, ← slotM_reverse hi,
    (fieldsApart_slotM bpp).composed_getLsbD (fun i => hv _) (by omega) hb,
    Nat.sub_sub_self (by omega)]

/-- At 1 bpp bit `i` of one order is bit `7 - i` of the other. -/
theorem rawL_getLsbD_eq_rawM {v : Nat → Level} (hv : ∀ i, (v i).toNat < 2 ^ 1) {i : Nat} (hi : i < 8) :
    (rawL 1 v).getLsbD i = (rawM 1 v).getLsbD (7 - i) := by
  have hl := (fieldsApart_slotL 1).composed_getLsbD hv hi Nat.zero_lt_one
  have hm := (fieldsApart_slotM 1).composed_getLsbD hv hi Nat.zero_lt_one
  have hsl : slotL 1 i + 0 = i := by simp [slotL]
  have hsm : slotM 1 i + 0 = 7 - i := by simp [slotM, ppb]
  rw [hsl] at hl
  rw [hsm] at hm
  exact hl.trans hm.symm

/-- Settles O28: the laws for slots that tile the byte, under both orders. -/
theorem packerLawsOfComplementAndOrder : Obligations.PackerLawsOfComplementAndOrder := by
  intro bpp v hbpp hv
  have hpos : 0 < bpp := by omega
  have hm := tilesByte_slotM hbpp
  have hl := tilesByte_slotL hbpp
  refine ⟨⟨packM_toNat bpp v, packL_toNat bpp v⟩,
    ⟨hm.composed_complement hv hbpp, hl.composed_complement hv hbpp⟩, fun r hr hz => ?_,
    rawL_eq_rawM_reverse hbpp hv, fun h i hi => rawL_getLsbD_eq_rawM (h ▸ hv) hi,
    fun u hu => ⟨congrArg (· ^^^ 0xFF) (composed_congr hu), congrArg (· ^^^ 0xFF) (composed_congr hu)⟩⟩
  have hu : ∀ i, (if i < r then complementLevel bpp (v i) else 0).toNat < 2 ^ bpp := by
    intro i
    split
    · exact complementLevel_toNat_lt hbpp (v i)
    · exact Nat.two_pow_pos bpp
  have hur : (if r < r then complementLevel bpp (v r) else 0) = 0 := if_neg (Nat.lt_irrefl r)
  exact ⟨hm.xor_ones_ne hv hu hpos hr hur (hz r le_rfl), hl.xor_ones_ne hv hu hpos hr hur (hz r le_rfl)⟩

end Sys2Proof.Machine
end

section
/-! O16, O17, O18: the mapper's two loads (41_mapper.md R71 to R73, 70_reset_and_hazards.md R116). -/

namespace Sys2Proof.Machine

section
variable {s : State} {xy : Nat × Nat}

theorem fetchPixel_of_some {v : Word}
    (h : memRead s.src (srcAddr s.latch.w.toNat xy % srcSize) = some v) :
    fetchPixel xy s = { s with pixel := v, phase := .quantise } := by
  rcases fetchPixel_cases xy s with ⟨w, hw, e⟩ | ⟨hw, -⟩
  · cases h.symm.trans hw
    exact e
  · cases h.symm.trans hw

theorem fetchPixel_of_none (h : memRead s.src (srcAddr s.latch.w.toNat xy % srcSize) = none) :
    fetchPixel xy s
      = { s with pixel := Config.freeWord s.draws, draws := s.draws + 1, phase := .quantise } := by
  rcases fetchPixel_cases xy s with ⟨w, hw, -⟩ | ⟨-, e⟩
  · cases h.symm.trans hw
  · exact e

end

/-- The row-major address of element SEQ is SEQ, which fits 20 bits. -/
theorem srcAddr_coordN_mod (seq : BitVec 20) (w : Nat) :
    srcAddr w (coordN seq.toNat w) % srcSize = srcAddr w (coordN seq.toNat w) :=
  Nat.mod_eq_of_lt (by rw [srcAddr_coordN]; exact seq.isLt)

/-- Settles O16: the load of the coordinate of MAPN, from a written word. -/
theorem mapnLoadsTheRowMajorPixel : Obligations.MapnLoadsTheRowMajorPixel := by
  refine ⟨fun cw => decodeSlot_mapper_iff cw rfl, fun s v hb hv => (whileBusy_busy hb).trans ?_⟩
  exact congrArg _ (fetchPixel_of_some (by rw [srcAddr_coordN_mod]; exact hv))

/-- Settles O17: the load of the coordinate of MAPR, from a written word. -/
theorem maprLoadsTheRotatedPixel : Obligations.MaprLoadsTheRotatedPixel :=
  ⟨fun cw => decodeSlot_mapper_iff cw rfl, fun _ _ hb hv =>
    (whileBusy_busy hb).trans (congrArg _ (fetchPixel_of_some hv))⟩

/-- Settles O18: both loads, from an unwritten word. -/
theorem fetchOfAnUnwrittenWordIsFree : Obligations.FetchOfAnUnwrittenWordIsFree := by
  refine fun s hb => ⟨fun hv => (whileBusy_busy hb).trans ?_, fun hv => (whileBusy_busy hb).trans ?_⟩
  · exact congrArg _ (fetchPixel_of_none (by rw [srcAddr_coordN_mod]; exact hv))
  · exact congrArg _ (fetchPixel_of_none hv)

end Sys2Proof.Machine
end

section
/-! O23, O24, O34: the packer's two operations and the end of a run (42_packer.md R79 to R84, 43_control.md
R90, R91). -/

namespace Sys2Proof.Machine

theorem invert_eq_not (x : Byte) : invert x = ~~~x := BitVec.xor_allOnes

section
variable {s : State} (slot : Nat)

theorem packAt_of_room (h : s.chi.toNat ≠ ppb s.latch.bpp.toNat - 1) :
    packAt slot s = { s with
      acc := s.acc ||| placed s.level slot, chi := s.chi + 1, seq := s.seq + 1
      phase := s.latch.phaseAt (s.seq + 1).toNat } := by
  rcases packAt_cases slot s with ⟨hc, -⟩ | ⟨-, e⟩
  · exact absurd hc h
  · exact e

theorem packAt_of_full (h : s.chi.toNat = ppb s.latch.bpp.toNat - 1) :
    packAt slot s = { s with
      out := memWrite s.out s.optr.toNat (~~~(s.acc ||| placed s.level slot)), optr := s.optr + 1
      acc := 0, chi := 0, seq := s.seq + 1, phase := s.latch.phaseAt (s.seq + 1).toNat } := by
  rcases packAt_cases slot s with ⟨-, e⟩ | ⟨hc, -⟩
  · rw [e, invert_eq_not]
  · exact absurd h hc

end

/-- Settles O23: one element packed at the slot of MSB order. -/
theorem pckmPacksOneElement : Obligations.PckmPacksOneElement := by
  refine ⟨fun cw => decodeSlot_packer_iff cw rfl, fun s hb => ⟨_, rfl, fun h => ?_, fun h => ?_⟩⟩
  · exact (whileBusy_busy hb).trans (congrArg _ (packAt_of_room _ h))
  · exact (whileBusy_busy hb).trans (congrArg _ (packAt_of_full _ h))

/-- Settles O24: one element packed at the slot of LSB order. -/
theorem pcklPacksOneElement : Obligations.PcklPacksOneElement := by
  refine ⟨fun cw => decodeSlot_packer_iff cw rfl, fun s hb => ⟨_, rfl, fun h => ?_, fun h => ?_⟩⟩
  · exact (whileBusy_busy hb).trans (congrArg _ (packAt_of_room _ h))
  · exact (whileBusy_busy hb).trans (congrArg _ (packAt_of_full _ h))

/-- Settles O34: the last stage with an empty and with a short last chunk. -/
theorem flushAndCompletionEndTheRun : Obligations.FlushAndCompletionEndTheRun := by
  intro s hb hp hw
  have hstep := step_of_finish (nextHostOp_waits hb hw) hb hp
  rcases finishRun_cases (passBlockStep s) with ⟨hc, e⟩ | ⟨hc, e⟩
  · exact ⟨fun _ => hstep.trans (congrArg _ e), fun h => absurd hc h⟩
  · rw [e, invert_eq_not] at hstep
    exact ⟨fun h => absurd h hc, fun _ => hstep⟩

end Sys2Proof.Machine
end

section
/-! O43, O47, O49, O50, O51: when host operations land, and those that issue no register or memory access
(30_encoding.md R58, 70_reset_and_hazards.md R112). -/

namespace Sys2Proof.Machine

/-- Settles O43: the three cases of `nextHostOp`. -/
theorem hostOperationsLandInOrder : Obligations.HostOperationsLandInOrder := by
  refine fun s => ⟨nextHostOp_of_nil, fun wait op rest hp => ⟨takeHostOp_eq hp,
    fun hb => nextHostOp_lands hp (absurd · hb), fun _ hw => nextHostOp_lands hp fun _ => hw,
    fun hb hw => ⟨nextHostOp_waits hb fun e l h => ?_, ?_⟩⟩⟩
  · cases hp.symm.trans h
    exact hw
  · rw [passBlockStep, hp, waitLess]

/-- Settles O47: `landHostOp` of a write to OUT is the identity. -/
theorem hostWriteToOutIsIgnored : Obligations.HostWriteToOutIsIgnored := fun _ _ _ ho =>
  step_of_nextHostOp ho rfl

theorem readReg_status_eq_one_iff (s : State) : readReg s 1 = 1 ↔ s.status = .busy := by
  rw [readReg]
  cases s.status <;> decide

/-- Settles O49: POLL is a read of STATUS, which reads 1 exactly while BUSY. -/
theorem pollReadsStatusUntilNotBusy : Obligations.PollReadsStatusUntilNotBusy := by
  refine fun s ho => ⟨fun hb => ⟨readReg s 1, ?_, mt (readReg_status_eq_one_iff s).mp hb⟩, fun hb => ?_⟩
  · rw [step_of_nextHostOp ho rfl, landHostOp, hostPoll_of_not_busy (s := takeHostOp s) hb]
    rfl
  · rw [step_hostOp_busy hb ho, landHostOp, hostPoll_busy (s := takeHostOp s) hb, hostReadReg,
      (readReg_status_eq_one_iff (takeHostOp s)).mpr hb]
    rfl

theorem step_of_issuedBy {s : State} {op : HostOp} {i : Instr} (ho : nextHostOp s = some op)
    (hi : issuedBy op = some i) : step s = exec i (takeHostOp s) := by
  simp only [step, ho, hi]

/-- Settles O50: the word the host writes decodes to the ENCODE it was made from. -/
theorem hostEncodeIssuesTheCommand : Obligations.HostEncodeIssuesTheCommand := by
  intro rot bord bpp s rest hb hp
  have hissued : issuedBy (.wr 0 (encodeRow (.encode rot bord bpp))) = some (.encode rot bord bpp) :=
    decodeSlot_encodeRow (.encode rot bord bpp)
  rw [step_of_issuedBy (nextHostOp_lands hp (absurd · hb)) hissued, takeHostOp_eq hp]
  rfl

theorem readReg_reset : readReg State.reset 0 = 0 ∧ readReg State.reset 1 = 0 ∧
    readReg State.reset 2 = 0 ∧ readReg State.reset 3 = 0 ∧ readReg State.reset 4 = 0 ∧
    readReg State.reset 5 = 128 ∧ readReg State.reset 6 = 0x004080C0 ∧ readReg State.reset 7 = 0 := by
  decide

/-- Settles O51: the block after a reset has the registers and memories of `State.reset`, and waits when
nothing is pending. -/
theorem resetTakesTheResetValues : Obligations.ResetTakesTheResetValues := by
  obtain ⟨h0, h1, h2, h3, h4, h5, h6, h7⟩ := readReg_reset
  exact ⟨fun s ho => ⟨_, step_of_nextHostOp ho rfl, rfl, rfl, h0, h1, h2, h3, h4, h5, h6, h7, rfl,
      fun _ => rfl, fun _ => rfl, fun hp => step_of_nothing (nextHostOp_of_nil hp) nofun⟩,
    rfl, h0, h1, h2, h3, h4, h5, h6, h7, fun _ => rfl, fun _ => rfl,
    step_of_nothing (nextHostOp_of_nil rfl) nofun⟩

end Sys2Proof.Machine
end
